-- ==== Sys2Proof/Word.lean ====
section
/-! DEFINITION. The word types of the G306 core: the widths of 00_scope.md rules R8 to R10. -/

namespace Sys2Proof

/-- A value of type `fx` (R10): an s32 raw integer standing for raw / 65536. -/
abbrev Fx := BitVec 32

/-- A value of type `fx48` (R10): an s48 raw integer at the same scale. -/
abbrev Fx48 := BitVec 48

/-- One command word (R80). -/
abbrev CommandWord := BitVec 48

/-- A register number of the register space (R50, R60). -/
abbrev RegNumber := BitVec 8

/-- A 32-bit operand or response (R80, R161). -/
abbrev Word := BitVec 32

end Sys2Proof
end

