-- ==== Sys2Proof/Config.lean ====
section
/-! DEFINITION. The fixed parameters of the hardware (00_scope.md rules R8 and R10). Every tunable of the
source is a configuration register and so part of State (R8, R41); the spec leaves no result open, so there
is no free value here. -/

namespace Sys2Proof.Config

/-- `DEG_STEP`, 11.25° as raw `fx` (R10). -/
abbrev degStep : Int := 737280

/-- `DEG_180` as raw `fx` (R10). -/
abbrev deg180 : Int := 11796480

/-- `DEG_360` as raw `fx` (R10). -/
abbrev deg360 : Int := 23592960

/-- One unit of `fx`: `FX(1)` (R10). -/
abbrev fxOne : Int := 65536

/-- Milliseconds in a minute, the factor of the speed formula (R112). -/
abbrev msPerMinute : Int := 60000

/-- The wrap half-range of the position ring, 16 positions (R8, R102). -/
abbrev halfTurn : Int := 16

/-- The positions of one turn, 32 (R8, R102). -/
abbrev fullTurn : Int := 32

/-- The top of the duty range (R8, R134). -/
abbrev dutyMax : Int := 255

end Sys2Proof.Config
end

