-- ==== Sys2Proof/Syntax.lean ====
section
/-! DEFINITION. The 19 operations of `G306-OPS version 1` (30_encoding.md rule R83), the names of the
register map (10_state.md rules R41, R50, R51) and the assembler's source lines (R87, R88). -/

namespace Sys2Proof

/-- The operations, one constructor per row of spec/opcode_table.json. An operand is the field of the command
word that the operation's format uses (R80, R81); the fields a format does not use are not part of the
instruction (R82). -/
inductive Instr where
  /-- R160 -/
  | nop
  /-- R142 -/
  | tick
  /-- R141 -/
  | start
  /-- R140: `d` is the commanded value -/
  | setcmd (d : Word)
  /-- R161: `a` is the register number -/
  | rdreg (a : RegNumber)
  /-- R162: `a` is the register number, `d` the value -/
  | wrreg (a : RegNumber) (d : Word)
  /-- R100 -/
  | gdec
  /-- R101 -/
  | cal
  /-- R102 -/
  | rdisp
  /-- R110 -/
  | ptick
  /-- R111 -/
  | prst
  /-- R112 -/
  | spdupd
  /-- R120 -/
  | dthr
  /-- R121 -/
  | dhsmp
  /-- R123 -/
  | dhcls
  /-- R124 -/
  | drst
  /-- R130 -/
  | pigain
  /-- R131: `d` is the measurement -/
  | pistep (d : Word)
  /-- R132 -/
  | pirst
  deriving DecidableEq, Repr

/-- The four formats of R80: which fields an operation uses. -/
inductive Format where
  /-- no operand -/
  | z
  /-- `a` -/
  | a
  /-- `d` -/
  | d
  /-- `a` and `d` -/
  | ad
  deriving DecidableEq, Repr

/-- The format of each operation (the table of R83). -/
def Instr.format : Instr → Format
  | .nop => .z
  | .tick => .z
  | .start => .z
  | .setcmd _ => .d
  | .rdreg _ => .a
  | .wrreg _ _ => .ad
  | .gdec => .z
  | .cal => .z
  | .rdisp => .z
  | .ptick => .z
  | .prst => .z
  | .spdupd => .z
  | .dthr => .z
  | .dhsmp => .z
  | .dhcls => .z
  | .drst => .z
  | .pigain => .z
  | .pistep _ => .d
  | .pirst => .z

/-- The named numbers of the register space: registers and views (R41, R50, R51). -/
inductive Reg where
  | ref | prevang | cnt | tog | chl | cntlast | spd | dir | tally | pch2 | err | integl | integh | out | kp
  | seq | rep | tstart | elapsed | tlastpi | tlastdir | tlastspd | rev | cmd
  | rptAbs | rptInc | rptDiff | rptDir | rptSpd | rptRep | rptn
  | duty | dirsel
  | mode | dstrat | msrc | k | kref | ki | outmin | outmax | base | thresh | hyshi | hyslo | tally0 | cpr
  | tctrl | tdir | tspd | ttrial | maxreps
  | inPins | inNow | inTicks
  deriving DecidableEq, Repr

/-- The mnemonics an assembler line may begin with (R83). -/
inductive Mnemonic where
  | nop | tick | start | setcmd | rdreg | wrreg | gdec | cal | rdisp | ptick | prst | spdupd
  | dthr | dhsmp | dhcls | drst | pigain | pistep | pirst
  deriving DecidableEq, Repr

/-- The format of a mnemonic (the table of R83). -/
def Mnemonic.format : Mnemonic → Format
  | .setcmd => .d
  | .rdreg => .a
  | .wrreg => .ad
  | .pistep => .d
  | .nop | .tick | .start | .gdec | .cal | .rdisp | .ptick | .prst | .spdupd
  | .dthr | .dhsmp | .dhcls | .drst | .pigain | .pirst => .z

/-- A register operand of the assembler (R87): a name, or a number as written. -/
inductive AsmReg where
  | name (r : Reg)
  | number (n : Nat)
  deriving DecidableEq, Repr

/-- A value operand of the assembler (R87). -/
inductive AsmValue where
  /-- a hexadecimal 32-bit pattern -/
  | pattern (n : Nat)
  /-- a decimal integer, meaning that raw integer -/
  | integer (z : Int)
  /-- `fx(q)` for the decimal number q = `digits` / 10 ^ `places` -/
  | fx (digits : Int) (places : Nat)
  deriving DecidableEq, Repr

/-- One source line (R87): a mnemonic with the operands written after it. -/
structure AsmLine where
  mnemonic : Mnemonic
  reg : Option AsmReg
  value : Option AsmValue
  deriving DecidableEq, Repr

/-- A source line or one of the two pseudo-instructions (R88). -/
inductive AsmItem where
  | op (l : AsmLine)
  | run (v : AsmValue)
  | rdinteg
  deriving DecidableEq, Repr

end Sys2Proof
end

