-- ==== Sys2Proof/WellFormed.lean ====
section
/-! DEFINITION. Well-formedness. A command word cannot hold an ill-formed operand: the fields of Instr have the
word's own widths, every register number is a valid operand (20_memory.md R62) and no value is rejected
(R140, R162). What can be ill-formed is an assembler line (30_encoding.md R87), so the checks are on that. -/

namespace Sys2Proof

/-- Every instruction is well formed: R62, R81, R82 admit every value of every field. -/
def Instr.wellFormed : Instr → Bool
  | .nop | .tick | .start | .gdec | .cal | .rdisp | .ptick | .prst | .spdupd
  | .dthr | .dhsmp | .dhcls | .drst | .pigain | .pirst => true
  | .setcmd _ => true
  | .rdreg _ => true
  | .wrreg _ _ => true
  | .pistep _ => true

/-- A register operand is a name or a number of 8 bits (R50, R87). -/
def AsmReg.wellFormed : AsmReg → Bool
  | .name _ => true
  | .number n => decide (n < 256)

/-- A value operand fits 32 bits (R87); for `fx(q)`, q × 65536 must be an integer in s32 range. That a decimal
integer may be any value with a 32-bit pattern, from −2^31 to 2^32 − 1, is a DESIGN CHOICE, safe (log entry 17). -/
def AsmValue.wellFormed : AsmValue → Bool
  | .pattern n => decide (n < 4294967296)
  | .integer z => decide (-2147483648 ≤ z ∧ z < 4294967296)
  | .fx digits places =>
    decide (digits * 65536 % 10 ^ places = 0 ∧ -2147483648 ≤ digits * 65536 / 10 ^ places ∧
      digits * 65536 / 10 ^ places ≤ 2147483647)

/-- A line has exactly the operands of its mnemonic's format (R87), each well formed. -/
def AsmLine.wellFormed (l : AsmLine) : Bool :=
  match l.mnemonic.format, l.reg, l.value with
  | .z, none, none => true
  | .a, some r, none => r.wellFormed
  | .d, none, some v => v.wellFormed
  | .ad, some r, some v => r.wellFormed && v.wellFormed
  | _, _, _ => false

/-- A line, or a pseudo-instruction with a well-formed operand (R88). -/
def AsmItem.wellFormed : AsmItem → Bool
  | .op l => l.wellFormed
  | .run v => v.wellFormed
  | .rdinteg => true

end Sys2Proof
end

