-- ==== Sys2Proof/Decode.lean ====
section
/-! DEFINITION. Decoding and encoding of command words (30_encoding.md rules R80 to R85), the register map's
numbers (10_state.md R41, R50 to R52) and the assembler (R87, R88). -/

namespace Sys2Proof

/-- `op`, bits 47:40 (R80). -/
def opField (w : CommandWord) : BitVec 8 := w.extractLsb' 40 8

/-- `a`, bits 39:32 (R80). -/
def aField (w : CommandWord) : RegNumber := w.extractLsb' 32 8

/-- `d`, bits 31:0 (R80). -/
def dField (w : CommandWord) : Word := w.extractLsb' 0 32

/-- Why a word is no operation: its opcode is reserved (R84). -/
inductive DecodeError where
  | reservedOpcode (op : BitVec 8)
  deriving DecidableEq, Repr

/-- The decoder: looks `op` up in the opcode map (R83). Total; a reserved opcode is rejected by name (R84).
The fields an operation does not use are ignored (R82). -/
def decode (w : CommandWord) : Except DecodeError Instr :=
  match (opField w).toNat with
  | 0x00 => .ok .nop
  | 0x01 => .ok .tick
  | 0x02 => .ok .start
  | 0x03 => .ok (.setcmd (dField w))
  | 0x04 => .ok (.rdreg (aField w))
  | 0x05 => .ok (.wrreg (aField w) (dField w))
  | 0x10 => .ok .gdec
  | 0x11 => .ok .cal
  | 0x12 => .ok .rdisp
  | 0x20 => .ok .ptick
  | 0x21 => .ok .prst
  | 0x22 => .ok .spdupd
  | 0x30 => .ok .dthr
  | 0x31 => .ok .dhsmp
  | 0x32 => .ok .dhcls
  | 0x33 => .ok .drst
  | 0x40 => .ok .pigain
  | 0x41 => .ok (.pistep (dField w))
  | 0x42 => .ok .pirst
  | _ => .error (.reservedOpcode (opField w))

/-- The opcode of an operation (the table of R83). -/
def Instr.opcode : Instr → BitVec 8
  | .nop => 0x00
  | .tick => 0x01
  | .start => 0x02
  | .setcmd _ => 0x03
  | .rdreg _ => 0x04
  | .wrreg _ _ => 0x05
  | .gdec => 0x10
  | .cal => 0x11
  | .rdisp => 0x12
  | .ptick => 0x20
  | .prst => 0x21
  | .spdupd => 0x22
  | .dthr => 0x30
  | .dhsmp => 0x31
  | .dhcls => 0x32
  | .drst => 0x33
  | .pigain => 0x40
  | .pistep _ => 0x41
  | .pirst => 0x42

/-- The `a` field an assembler writes: the operand, or zero where the format has none (R82). -/
def Instr.aOperand : Instr → RegNumber
  | .rdreg a => a
  | .wrreg a _ => a
  | .nop | .tick | .start | .setcmd _ | .gdec | .cal | .rdisp | .ptick | .prst | .spdupd
  | .dthr | .dhsmp | .dhcls | .drst | .pigain | .pistep _ | .pirst => 0

/-- The `d` field an assembler writes: the operand, or zero where the format has none (R82). -/
def Instr.dOperand : Instr → Word
  | .setcmd d => d
  | .wrreg _ d => d
  | .pistep d => d
  | .nop | .tick | .start | .rdreg _ | .gdec | .cal | .rdisp | .ptick | .prst | .spdupd
  | .dthr | .dhsmp | .dhcls | .drst | .pigain | .pirst => 0

/-- The encoder: `op`, `a` and `d` in their places (R80), unused fields zero (R82). -/
def encode (i : Instr) : CommandWord := i.opcode ++ i.aOperand ++ i.dOperand

/-- The decoder's answer for a row of spec/opcode_table.json: bit 0 of `w` is bit 0 of the one 48-bit word;
bits from `nbits` up are 0 (DESIGN CHOICE, safe, log entry 18). -/
def decodeTableWord (nbits w : Nat) : Option Instr :=
  match decode (BitVec.ofNat 48 (w % 2 ^ nbits)) with
  | .ok i => some i
  | .error _ => none

/-- The number of each named register or view (R41, R50, R51). -/
def Reg.number : Reg → RegNumber
  | .ref => 0x00
  | .prevang => 0x01
  | .cnt => 0x02
  | .tog => 0x03
  | .chl => 0x04
  | .cntlast => 0x05
  | .spd => 0x06
  | .dir => 0x07
  | .tally => 0x08
  | .pch2 => 0x09
  | .err => 0x0A
  | .integl => 0x0B
  | .integh => 0x0C
  | .out => 0x0D
  | .kp => 0x0E
  | .seq => 0x10
  | .rep => 0x11
  | .tstart => 0x12
  | .elapsed => 0x13
  | .tlastpi => 0x14
  | .tlastdir => 0x15
  | .tlastspd => 0x16
  | .rev => 0x17
  | .cmd => 0x18
  | .rptAbs => 0x20
  | .rptInc => 0x21
  | .rptDiff => 0x22
  | .rptDir => 0x23
  | .rptSpd => 0x24
  | .rptRep => 0x25
  | .rptn => 0x26
  | .duty => 0x30
  | .dirsel => 0x31
  | .mode => 0x40
  | .dstrat => 0x41
  | .msrc => 0x42
  | .k => 0x43
  | .kref => 0x44
  | .ki => 0x45
  | .outmin => 0x46
  | .outmax => 0x47
  | .base => 0x48
  | .thresh => 0x49
  | .hyshi => 0x4A
  | .hyslo => 0x4B
  | .tally0 => 0x4C
  | .cpr => 0x4D
  | .tctrl => 0x4E
  | .tdir => 0x4F
  | .tspd => 0x50
  | .ttrial => 0x51
  | .maxreps => 0x52
  | .inPins => 0x60
  | .inNow => 0x61
  | .inTicks => 0x62

/-- What a register number names; `none` for an unmapped number (R52). -/
def regAt (a : RegNumber) : Option Reg :=
  match a.toNat with
  | 0x00 => some .ref
  | 0x01 => some .prevang
  | 0x02 => some .cnt
  | 0x03 => some .tog
  | 0x04 => some .chl
  | 0x05 => some .cntlast
  | 0x06 => some .spd
  | 0x07 => some .dir
  | 0x08 => some .tally
  | 0x09 => some .pch2
  | 0x0A => some .err
  | 0x0B => some .integl
  | 0x0C => some .integh
  | 0x0D => some .out
  | 0x0E => some .kp
  | 0x10 => some .seq
  | 0x11 => some .rep
  | 0x12 => some .tstart
  | 0x13 => some .elapsed
  | 0x14 => some .tlastpi
  | 0x15 => some .tlastdir
  | 0x16 => some .tlastspd
  | 0x17 => some .rev
  | 0x18 => some .cmd
  | 0x20 => some .rptAbs
  | 0x21 => some .rptInc
  | 0x22 => some .rptDiff
  | 0x23 => some .rptDir
  | 0x24 => some .rptSpd
  | 0x25 => some .rptRep
  | 0x26 => some .rptn
  | 0x30 => some .duty
  | 0x31 => some .dirsel
  | 0x40 => some .mode
  | 0x41 => some .dstrat
  | 0x42 => some .msrc
  | 0x43 => some .k
  | 0x44 => some .kref
  | 0x45 => some .ki
  | 0x46 => some .outmin
  | 0x47 => some .outmax
  | 0x48 => some .base
  | 0x49 => some .thresh
  | 0x4A => some .hyshi
  | 0x4B => some .hyslo
  | 0x4C => some .tally0
  | 0x4D => some .cpr
  | 0x4E => some .tctrl
  | 0x4F => some .tdir
  | 0x50 => some .tspd
  | 0x51 => some .ttrial
  | 0x52 => some .maxreps
  | 0x60 => some .inPins
  | 0x61 => some .inNow
  | 0x62 => some .inTicks
  | _ => none

/-- The number a register operand of the assembler stands for (R87). -/
def AsmReg.bits : AsmReg → RegNumber
  | .name r => r.number
  | .number n => BitVec.ofNat 8 n

/-- The 32-bit pattern a value operand stands for (R87). -/
def AsmValue.bits : AsmValue → Word
  | .pattern n => BitVec.ofNat 32 n
  | .integer z => BitVec.ofInt 32 z
  | .fx digits places => BitVec.ofInt 32 (digits * 65536 / 10 ^ places)

/-- The instruction of a mnemonic with its operand fields. -/
def Mnemonic.withFields (m : Mnemonic) (a : RegNumber) (d : Word) : Instr :=
  match m with
  | .nop => .nop
  | .tick => .tick
  | .start => .start
  | .setcmd => .setcmd d
  | .rdreg => .rdreg a
  | .wrreg => .wrreg a d
  | .gdec => .gdec
  | .cal => .cal
  | .rdisp => .rdisp
  | .ptick => .ptick
  | .prst => .prst
  | .spdupd => .spdupd
  | .dthr => .dthr
  | .dhsmp => .dhsmp
  | .dhcls => .dhcls
  | .drst => .drst
  | .pigain => .pigain
  | .pistep => .pistep d
  | .pirst => .pirst

/-- Assembling one line (R87): an ill-formed line is the assembler's error, `none`. -/
def AsmLine.assemble (l : AsmLine) : Option Instr :=
  if l.wellFormed then
    some (l.mnemonic.withFields ((l.reg.map AsmReg.bits).getD 0) ((l.value.map AsmValue.bits).getD 0))
  else none

/-- Assembling an item (R88): `RUN v` is `SETCMD v`, `START`; `RDINTEG` is `RDREG INTEGL`, `RDREG INTEGH`. -/
def AsmItem.assemble : AsmItem → Option (List Instr)
  | .op l => l.assemble.map (fun i => [i])
  | .run v => if v.wellFormed then some [.setcmd v.bits, .start] else none
  | .rdinteg => some [.rdreg Reg.integl.number, .rdreg Reg.integh.number]

end Sys2Proof
end

