-- ==== Sys2Proof/Machine/State.lean ====
section
/-! DEFINITION. The state of the core (10_state.md rules R20 to R41), its reset value (R55), the outcomes a step
may not have, and the model's own record of the ports (00_scope.md rules R6, R7). -/

namespace Sys2Proof.Machine

/-- Absolute Angle Tracker registers (R21). -/
structure Tracker where
  ref : BitVec 5
  prevang : Fx
  deriving DecidableEq, Repr

/-- Incremental Pulse Counter registers (R22). -/
structure Counter where
  cnt : BitVec 32
  tog : BitVec 1
  chl : BitVec 2
  cntlast : BitVec 32
  spd : Fx
  deriving DecidableEq, Repr

/-- Direction Estimator registers (R23). `dir`: 0 STILL, 1 CW, 2 CCW; 3 is never produced. -/
structure Direction where
  dir : BitVec 2
  tally : BitVec 16
  pch2 : BitVec 1
  deriving DecidableEq, Repr

/-- PI Controller registers (R24). -/
structure Controller where
  err : Fx
  integ : Fx48
  out : Fx
  kp : Fx
  deriving DecidableEq, Repr

/-- The Trial Sequencer's state, the four values of the u2 register `SEQ` (R30). -/
inductive Seq where
  | idle
  | running
  | reporting
  | done
  deriving DecidableEq, Repr

/-- Sequencer registers (R30, R31). -/
structure Sequencer where
  seq : Seq
  rep : BitVec 32
  tstart : BitVec 32
  elapsed : BitVec 32
  tlastpi : BitVec 32
  tlastdir : BitVec 32
  tlastspd : BitVec 32
  rev : BitVec 1
  cmd : Fx
  deriving DecidableEq, Repr

/-- Report registers (R32). -/
structure Report where
  rptAbs : Fx
  rptInc : Fx
  rptDiff : Fx
  rptDir : BitVec 2
  rptSpd : Fx
  rptRep : BitVec 32
  rptn : BitVec 32
  deriving DecidableEq, Repr

/-- Configuration registers (R41). -/
structure Tunables where
  mode : BitVec 1
  dstrat : BitVec 1
  msrc : BitVec 1
  k : Fx
  kref : Fx
  ki : Fx
  outmin : Fx
  outmax : Fx
  base : Fx
  thresh : Fx
  hyshi : BitVec 16
  hyslo : BitVec 16
  tally0 : BitVec 16
  cpr : BitVec 16
  tctrl : BitVec 32
  tdir : BitVec 32
  tspd : BitVec 32
  ttrial : BitVec 32
  maxreps : BitVec 16
  deriving DecidableEq, Repr

/-- The input record `in` of one step (R7). -/
structure Inputs where
  g : BitVec 5
  ch1 : BitVec 1
  ch2 : BitVec 1
  now : BitVec 32
  ticks : BitVec 32
  rst : Bool
  deriving DecidableEq, Repr

/-- The per-step outputs (R7, R13): an optional response and the two strobes. -/
structure Outputs where
  resp : Option Word
  rptStb : Bool
  spdStb : Bool
  deriving DecidableEq, Repr

/-- One step's demand on the core (R6): the command word on the port and the input sample taken with it. -/
structure Arrival where
  word : CommandWord
  inp : Inputs
  deriving DecidableEq, Repr

/-- The state. The first seven fields are the registers of the spec, all of them (R20); the last three are the
model's: the sample the running step reads, the outputs of the last step, and the words still to arrive with
their samples (DESIGN CHOICE, log entries 1, 2 and 5). -/
structure State where
  tracker : Tracker
  counter : Counter
  direction : Direction
  pi : Controller
  sequencer : Sequencer
  report : Report
  cfg : Tunables
  inp : Inputs
  outputs : Outputs
  port : List Arrival
  deriving DecidableEq, Repr

/-- The core raises no exception, fault or trap of any kind (R170): no constructor, so no step can fault. Safe. -/
inductive Fault where
  deriving DecidableEq, Repr

/-- Why a step could have no meaning. -/
inductive Refusal where
  /-- Raised by exec's arm of an instruction that has no meaning yet; safe. No arm of this model raises it. -/
  | notModelled (mnemonic : String)
  deriving DecidableEq, Repr

/-- Reset values of R21. -/
def Tracker.reset : Tracker := { ref := 0, prevang := 0 }

/-- Reset values of R22. -/
def Counter.reset : Counter := { cnt := 0, tog := 0, chl := 0, cntlast := 0, spd := 0 }

/-- Reset values of R23. -/
def Direction.reset : Direction := { dir := 0, tally := 60, pch2 := 0 }

/-- Reset values of R24. -/
def Controller.reset : Controller := { err := 0, integ := 0, out := 0, kp := 0 }

/-- Reset values of R30 and R31. -/
def Sequencer.reset : Sequencer :=
  { seq := .idle, rep := 1, tstart := 0, elapsed := 0, tlastpi := 0, tlastdir := 0, tlastspd := 0, rev := 0, cmd := 0 }

/-- Reset values of R32. -/
def Report.reset : Report :=
  { rptAbs := 0, rptInc := 0, rptDiff := 0, rptDir := 0, rptSpd := 0, rptRep := 0, rptn := 0 }

/-- Reset values of R41. -/
def Tunables.reset : Tunables :=
  { mode := 0, dstrat := 0, msrc := 0
    k := 0x00010000, kref := 0x005A0000, ki := 0
    outmin := 0, outmax := 0x00FF0000, base := 0
    thresh := 0x000B4000, hyshi := 100, hyslo := 20, tally0 := 60, cpr := 228
    tctrl := 10, tdir := 100, tspd := 100, ttrial := 4000, maxreps := 10 }

/-- All input levels 0. Only the value the model's field `inp` has at reset (DESIGN CHOICE, log entry 5). -/
def Inputs.low : Inputs := { g := 0, ch1 := 0, ch2 := 0, now := 0, ticks := 0, rst := false }

/-- No response and no strobe (R13). -/
def Outputs.none : Outputs := { resp := Option.none, rptStb := false, spdStb := false }

/-- The machine right after reset (R55, R190): every register at its reset value, no response, no strobe; no
word on the port (DESIGN CHOICE, log entry 1). -/
def State.reset : State :=
  { tracker := Tracker.reset
    counter := Counter.reset
    direction := Direction.reset
    pi := Controller.reset
    sequencer := Sequencer.reset
    report := Report.reset
    cfg := Tunables.reset
    inp := Inputs.low
    outputs := Outputs.none
    port := [] }

/-- The state with other Angle Tracker registers. -/
def State.withTracker (s : State) (x : Tracker) : State := { s with tracker := x }

/-- The state with other Pulse Counter registers. -/
def State.withCounter (s : State) (x : Counter) : State := { s with counter := x }

/-- The state with other Direction Estimator registers. -/
def State.withDirection (s : State) (x : Direction) : State := { s with direction := x }

/-- The state with other PI Controller registers. -/
def State.withPi (s : State) (x : Controller) : State := { s with pi := x }

/-- The state with other sequencer registers. -/
def State.withSequencer (s : State) (x : Sequencer) : State := { s with sequencer := x }

/-- The state with other report registers. -/
def State.withReport (s : State) (x : Report) : State := { s with report := x }

/-- The state with other configuration registers. -/
def State.withCfg (s : State) (x : Tunables) : State := { s with cfg := x }

/-- The state with another input sample. -/
def State.withInp (s : State) (x : Inputs) : State := { s with inp := x }

/-- The state with other per-step outputs. -/
def State.withOutputs (s : State) (x : Outputs) : State := { s with outputs := x }

/-- The state with other words still to arrive. -/
def State.withPort (s : State) (x : List Arrival) : State := { s with port := x }

end Sys2Proof.Machine
end

