-- ==== Sys2Proof/Machine/Flags.lean ====
section
/-! DEFINITION. The one-bit state that behaves as flags (10_state.md rule R35): `TOG`, `REV`, `PCH2` and the
predicate *latched*. The core has no condition codes; saturation sets nothing. -/

namespace Sys2Proof.Machine

/-- STILL, CW and CCW (R23). -/
abbrev dirStill : BitVec 2 := 0

/-- CW, code 1 (R23). -/
abbrev dirCw : BitVec 2 := 1

/-- CCW, code 2 (R23). -/
abbrev dirCcw : BitVec 2 := 2

/-- *latched*, `DIR != 0` (R23, R35). The code 3, which no rule writes, counts as latched (U10, log entry 8). -/
def latched (d : Direction) : Bool := decide (d.dir ≠ dirStill)

/-- The two channels differ (R110). -/
def channelsDiffer (x : Inputs) : Bool := decide (x.ch1 ^^^ x.ch2 = 1)

/-- `TOG` after a sample (R110): set when the channels differ and it is clear, cleared when they are equal and
it is set. -/
def togAfter (x : Inputs) (tog : BitVec 1) : BitVec 1 :=
  if channelsDiffer x ∧ tog = 0 then 1
  else if ¬ channelsDiffer x ∧ tog = 1 then 0
  else tog

/-- Channel 2 rises between the previous `DHSMP` and this sample (R121). -/
def ch2Rises (x : Inputs) (pch2 : BitVec 1) : Bool := decide (pch2 = 0 ∧ x.ch2 = 1)

/-- Channel 2 falls between the previous `DHSMP` and this sample (R121). -/
def ch2Falls (x : Inputs) (pch2 : BitVec 1) : Bool := decide (pch2 = 1 ∧ x.ch2 = 0)

/-- `REV` for a commanded value: 1 when it is negative (R140). -/
def revFlag (v : Int) : BitVec 1 := if v < 0 then 1 else 0

end Sys2Proof.Machine
end

