-- ==== Sys2Proof/Machine/Operands.lean ====
section
/-! DEFINITION. The operand forms (30_encoding.md rule R81) and the extensions of the register map's reads
(00_scope.md R9, 10_state.md R50). -/

namespace Sys2Proof.Machine

/-- `as_s32(d)` (R9): the operand of `SETCMD` and `PISTEP` as an `fx` raw value, with no scaling (R81). -/
def asS32 (d : Word) : Int := d.toInt

/-- `d[w−1:0]` (R81, R162): the low bits that `WRREG` stores into a register of width `w`. -/
def lowBits (w : Nat) (d : Word) : BitVec w := d.extractLsb' 0 w

/-- `zext_32` (R9, R50): how an unsigned register narrower than 32 bits is read. -/
def zext32 {w : Nat} (v : BitVec w) : Word := v.setWidth 32

/-- `INTEG[31:0]`, what `INTEGL` reads (R50). -/
def integLow (v : Fx48) : Word := v.extractLsb' 0 32

/-- `sext_32(INTEG[47:32])`, what `INTEGH` reads (R50). -/
def integHigh (v : Fx48) : Word := (v.extractLsb' 32 16).signExtend 32

/-- `{in.ch2, in.ch1, in.g}` zero-extended, what `IN_PINS` reads (R51). -/
def pinsView (x : Inputs) : Word := zext32 (x.ch2 ++ x.ch1 ++ x.g)

/-- The u2 code of the sequencer's state (R30). -/
def seqCode : Seq → BitVec 2
  | .idle => 0
  | .running => 1
  | .reporting => 2
  | .done => 3

end Sys2Proof.Machine
end

