-- ==== Sys2Proof/Machine/Ops.lean ====
section
/-! DEFINITION. The shared operations: the arithmetic primitives (00_scope.md rules R11, R12, R14), the register
space (10_state.md R50 to R52), acceptance by sequencer state (30_encoding.md R86), the actuation outputs
(43_pi_controller.md R134), the command port (00_scope.md R6) and reset (70_reset_and_hazards.md R190).
There is no operation that takes an exception and none that returns from one: the core has neither (R170, R174,
R175). There is no memory and so no operation over memory (R60). -/

namespace Sys2Proof.Machine

/-- `sat32` (R11). -/
def sat32 (x : Int) : Int := max (-2147483648) (min x 2147483647)

/-- `sat48` (R11). -/
def sat48 (x : Int) : Int := max (-140737488355328) (min x 140737488355327)

/-- `tdiv`, division truncating toward zero (R11). -/
def tdiv (n d : Int) : Int := Int.tdiv n d

/-- `divsat` (R11). -/
def divsat (n d : Int) : Int :=
  if d = 0 then (if 0 < n then 2147483647 else if n < 0 then -2147483648 else 0)
  else sat32 (tdiv n d)

/-- `x >> 16` on a signed integer: floor(x / 65536) (R11); division by a positive number rounds toward −∞. -/
def floor16 (x : Int) : Int := x / 65536

/-- `clamp`; when lo > hi the result is lo (R11). -/
def clamp (x lo hi : Int) : Int := max lo (min x hi)

/-- The `fx` register content of a raw value in s32 range (R10; DEDUCED, safe, log entry 9). -/
def toFx (x : Int) : Fx := BitVec.ofInt 32 x

/-- The `fx48` register content of a raw value in s48 range (R10). -/
def toFx48 (x : Int) : Fx48 := BitVec.ofInt 48 x

/-- A u32 counter plus one, saturating (R110 for `CNT`). For `REP` and `RPTN`, which never reach the end of the
range (R31, R32), the saturation is DEDUCED from 'no operation wraps silently' (R11), unsafe in form, unreachable
in fact (log entry 7). -/
def incSat32 (x : BitVec 32) : BitVec 32 := BitVec.ofNat 32 (min (x.toNat + 1) 4294967295)

/-- The loop of `gray2bin` (R12), with a bound on its turns. -/
def grayLoop : Nat → BitVec 5 → BitVec 5 → BitVec 5
  | 0, b, _ => b
  | n + 1, b, s => if s = 0 then b else grayLoop n (b ^^^ s) (s >>> 1)

/-- `gray2bin` (R12); five turns are enough for five bits. -/
def gray2bin (g : BitVec 5) : BitVec 5 := grayLoop 5 g (g >>> 1)

/-- `bin2gray` (R12). -/
def bin2gray (b : BitVec 5) : BitVec 5 := b ^^^ (b >>> 1)

/-- `since(t) = (in.now − t) mod 2^32` (R14). -/
def since (x : Inputs) (t : BitVec 32) : BitVec 32 := x.now - t

/-- `since(t) >= period`, the form of every period test (R177). -/
def due (x : Inputs) (t period : BitVec 32) : Bool := decide (period.toNat ≤ (since x t).toNat)

/-- A step that produces no response and no strobe (R13). -/
def State.quiet (s : State) : State := s.withOutputs Outputs.none

/-- `resp <- v` (R13): the step's response, and no strobe. -/
def State.respond (s : State) (v : Word) : State :=
  s.withOutputs { resp := some v, rptStb := false, spdStb := false }

/-- `spd_stb <- 1` (R13). -/
def State.raiseSpd (s : State) : State := s.withOutputs { s.outputs with spdStb := true }

/-- `rpt_stb <- 1` (R13). -/
def State.raiseRpt (s : State) : State := s.withOutputs { s.outputs with rptStb := true }

/-- Acceptance in IDLE only (R86): in every other sequencer state the operation is ignored, with no state change,
no response and no strobe. An accepted operation starts with quiet outputs. -/
def whenIdle (s : State) (f : State → State) : Host.Outcome State Fault Refusal :=
  match s.sequencer.seq with
  | .idle => .next (f s.quiet)
  | .running => .next s.quiet
  | .reporting => .next s.quiet
  | .done => .next s.quiet

/-- `duty` (R134). -/
def duty (s : State) : BitVec 8 :=
  match s.sequencer.seq with
  | .running => BitVec.ofInt 8 (clamp (floor16 s.pi.out.toInt) 0 Config.dutyMax)
  | .idle => 0
  | .reporting => 0
  | .done => 0

/-- `dir_sel` (R134). -/
def dirSel (s : State) : BitVec 1 := s.sequencer.rev

/-- The value a named register or view reads (R50, R51). -/
def readNamed (s : State) : Reg → Word
  | .ref => zext32 s.tracker.ref
  | .prevang => s.tracker.prevang
  | .cnt => s.counter.cnt
  | .tog => zext32 s.counter.tog
  | .chl => zext32 s.counter.chl
  | .cntlast => s.counter.cntlast
  | .spd => s.counter.spd
  | .dir => zext32 s.direction.dir
  | .tally => zext32 s.direction.tally
  | .pch2 => zext32 s.direction.pch2
  | .err => s.pi.err
  | .integl => integLow s.pi.integ
  | .integh => integHigh s.pi.integ
  | .out => s.pi.out
  | .kp => s.pi.kp
  | .seq => zext32 (seqCode s.sequencer.seq)
  | .rep => s.sequencer.rep
  | .tstart => s.sequencer.tstart
  | .elapsed => s.sequencer.elapsed
  | .tlastpi => s.sequencer.tlastpi
  | .tlastdir => s.sequencer.tlastdir
  | .tlastspd => s.sequencer.tlastspd
  | .rev => zext32 s.sequencer.rev
  | .cmd => s.sequencer.cmd
  | .rptAbs => s.report.rptAbs
  | .rptInc => s.report.rptInc
  | .rptDiff => s.report.rptDiff
  | .rptDir => zext32 s.report.rptDir
  | .rptSpd => s.report.rptSpd
  | .rptRep => s.report.rptRep
  | .rptn => s.report.rptn
  | .duty => zext32 (duty s)
  | .dirsel => zext32 (dirSel s)
  | .mode => zext32 s.cfg.mode
  | .dstrat => zext32 s.cfg.dstrat
  | .msrc => zext32 s.cfg.msrc
  | .k => s.cfg.k
  | .kref => s.cfg.kref
  | .ki => s.cfg.ki
  | .outmin => s.cfg.outmin
  | .outmax => s.cfg.outmax
  | .base => s.cfg.base
  | .thresh => s.cfg.thresh
  | .hyshi => zext32 s.cfg.hyshi
  | .hyslo => zext32 s.cfg.hyslo
  | .tally0 => zext32 s.cfg.tally0
  | .cpr => zext32 s.cfg.cpr
  | .tctrl => s.cfg.tctrl
  | .tdir => s.cfg.tdir
  | .tspd => s.cfg.tspd
  | .ttrial => s.cfg.ttrial
  | .maxreps => zext32 s.cfg.maxreps
  | .inPins => pinsView s.inp
  | .inNow => s.inp.now
  | .inTicks => s.inp.ticks

/-- `x[a]` read (R13, R161): an unmapped number reads 0 (R52). -/
def readReg (s : State) (a : RegNumber) : Word :=
  match regAt a with
  | some r => readNamed s r
  | none => 0

/-- A configuration register's new content (R162); every other name is read-only to the host (R50). -/
def writeNamed (c : Tunables) (r : Reg) (d : Word) : Tunables :=
  match r with
  | .mode => { c with mode := lowBits 1 d }
  | .dstrat => { c with dstrat := lowBits 1 d }
  | .msrc => { c with msrc := lowBits 1 d }
  | .k => { c with k := lowBits 32 d }
  | .kref => { c with kref := lowBits 32 d }
  | .ki => { c with ki := lowBits 32 d }
  | .outmin => { c with outmin := lowBits 32 d }
  | .outmax => { c with outmax := lowBits 32 d }
  | .base => { c with base := lowBits 32 d }
  | .thresh => { c with thresh := lowBits 32 d }
  | .hyshi => { c with hyshi := lowBits 16 d }
  | .hyslo => { c with hyslo := lowBits 16 d }
  | .tally0 => { c with tally0 := lowBits 16 d }
  | .cpr => { c with cpr := lowBits 16 d }
  | .tctrl => { c with tctrl := lowBits 32 d }
  | .tdir => { c with tdir := lowBits 32 d }
  | .tspd => { c with tspd := lowBits 32 d }
  | .ttrial => { c with ttrial := lowBits 32 d }
  | .maxreps => { c with maxreps := lowBits 16 d }
  | .ref | .prevang | .cnt | .tog | .chl | .cntlast | .spd | .dir | .tally | .pch2 | .err | .integl | .integh | .out
  | .kp | .seq | .rep | .tstart | .elapsed | .tlastpi | .tlastdir | .tlastspd | .rev | .cmd | .rptAbs | .rptInc
  | .rptDiff | .rptDir | .rptSpd | .rptRep | .rptn | .duty | .dirsel | .inPins | .inNow | .inTicks => c

/-- `x[a] <- d` (R13, R162): no effect on an unmapped number (R52). -/
def writeReg (c : Tunables) (a : RegNumber) (d : Word) : Tunables :=
  match regAt a with
  | some r => writeNamed c r d
  | none => c

/-- Taking the next word from the command port with its input sample (R6): the sample of this step replaces the
one held. `none` when no word is waiting. -/
def takeArrival (s : State) : Option (Arrival × State) :=
  match s.port with
  | [] => none
  | a :: rest => some (a, (s.withInp a.inp).withPort rest)

/-- Reset (R190): every register at its reset value, no response, no strobe; the sample and the words still to
arrive are the outside world's and stay; the word presented with reset is consumed (DEDUCED, safe, log entry 4). -/
def resetCore (s : State) : State := (State.reset.withInp s.inp).withPort s.port

/-- A reserved command word (R84): no state change, no response, no strobe (DESIGN CHOICE between R84 and U1, safe,
log entry 6). -/
def runReserved (s : State) : State := s.quiet

/-- No word on the port: no command is executed, so no register changes (R6, R200) and nothing is produced
(DESIGN CHOICE, log entry 3). -/
def idleStep (s : State) : State := s.quiet

end Sys2Proof.Machine
end

