-- ==== Sys2Proof/Machine/HostAccess.lean ====
section
/-! DEFINITION. Host access: NOP, RDREG, WRREG (45_host_access.md). -/

namespace Sys2Proof.Machine

/-- `NOP` (R160): every state accepts it. -/
def execNop (s : State) : Host.Outcome State Fault Refusal := .next s.quiet

/-- `RDREG` (R161): every state accepts it; it writes nothing. -/
def execRdreg (a : RegNumber) (s : State) : Host.Outcome State Fault Refusal :=
  .next (s.respond (readReg s a))

/-- `WRREG` (R162). -/
def execWrreg (a : RegNumber) (d : Word) (s : State) : Host.Outcome State Fault Refusal :=
  whenIdle s fun t => t.withCfg (writeReg t.cfg a d)

end Sys2Proof.Machine
end

