-- ==== Sys2Proof/Machine/GrayTracker.lean ====
section
/-! DEFINITION. Gray Decoder and Absolute Angle Tracker: GDEC, CAL, RDISP (40_gray_tracker.md). -/

namespace Sys2Proof.Machine

/-- `do_CAL` (R101). -/
def doCal (x : Inputs) : Tracker := { ref := gray2bin x.g, prevang := 0 }

/-- The wraparound of a position difference into −16..16 (R102). -/
def wrapSteps (diff : Int) : Int :=
  if Config.halfTurn < diff then diff - Config.fullTurn
  else if diff < -Config.halfTurn then diff + Config.fullTurn
  else diff

/-- `disp(g, ref)` as an `fx` raw value (R102). -/
def disp (g ref : BitVec 5) : Int :=
  wrapSteps ((gray2bin g).toNat - ref.toNat) * Config.degStep

/-- `GDEC` (R100). -/
def execGdec (s : State) : Host.Outcome State Fault Refusal :=
  whenIdle s fun t => t.respond (zext32 (gray2bin t.inp.g))

/-- `CAL` (R101). -/
def execCal (s : State) : Host.Outcome State Fault Refusal :=
  whenIdle s fun t => t.withTracker (doCal t.inp)

/-- `RDISP` (R102). -/
def execRdisp (s : State) : Host.Outcome State Fault Refusal :=
  whenIdle s fun t => t.respond (toFx (disp t.inp.g t.tracker.ref))

end Sys2Proof.Machine
end

