-- ==== Sys2Proof/Machine/DirectionEstimator.lean ====
section
/-! DEFINITION. Direction Estimator: DTHR, DHSMP, DHCLS, DRST (42_direction.md). -/

namespace Sys2Proof.Machine

/-- `norm(delta)` (R120). -/
def normDelta (delta : Int) : Int :=
  if Config.deg180 < delta then delta - Config.deg360
  else if delta < -Config.deg180 then delta + Config.deg360
  else delta

/-- `classify(delta, th)` (R120). -/
def classify (delta th : Int) : BitVec 2 :=
  if th < delta then dirCw
  else if delta < -th then dirCcw
  else dirStill

/-- `do_DTHR(cur)` (R120): no effect at all while latched. -/
def doDthr (cur : Int) (s : State) : State :=
  if latched s.direction then s
  else
    (s.withDirection { s.direction with
      dir := classify (normDelta (cur - s.tracker.prevang.toInt)) s.cfg.thresh.toInt }).withTracker
      { s.tracker with prevang := toFx cur }

/-- The move of the tally for one sample (R121), saturating at 0 and 65535. -/
def tallyAfter (x : Inputs) (d : Direction) : BitVec 16 :=
  if (ch2Rises x d.pch2 ∧ x.ch1 = 1) ∨ (ch2Falls x d.pch2 ∧ x.ch1 = 0) then
    BitVec.ofNat 16 (min (d.tally.toNat + 1) 65535)
  else if (ch2Rises x d.pch2 ∧ x.ch1 = 0) ∨ (ch2Falls x d.pch2 ∧ x.ch1 = 1) then
    BitVec.ofNat 16 (d.tally.toNat - 1)
  else d.tally

/-- `do_DHSMP` (R121); it moves the tally even when latched. -/
def doDhsmp (x : Inputs) (d : Direction) : Direction :=
  { d with tally := tallyAfter x d, pch2 := x.ch2 }

/-- `do_DHCLS` (R123): the upper test first, both strict; no effect while latched. -/
def doDhcls (k : Tunables) (d : Direction) : Direction :=
  if latched d then d
  else if k.hyshi.toNat < d.tally.toNat then { d with dir := dirCw }
  else if d.tally.toNat < k.hyslo.toNat then { d with dir := dirCcw }
  else d

/-- `do_DRST` (R124). -/
def doDrst (x : Inputs) (k : Tunables) : Direction :=
  { dir := dirStill, tally := k.tally0, pch2 := x.ch2 }

/-- `DTHR` (R120). -/
def execDthr (s : State) : Host.Outcome State Fault Refusal :=
  whenIdle s fun t => doDthr (disp t.inp.g t.tracker.ref) t

/-- `DHSMP` (R121). -/
def execDhsmp (s : State) : Host.Outcome State Fault Refusal :=
  whenIdle s fun t => t.withDirection (doDhsmp t.inp t.direction)

/-- `DHCLS` (R123). -/
def execDhcls (s : State) : Host.Outcome State Fault Refusal :=
  whenIdle s fun t => t.withDirection (doDhcls t.cfg t.direction)

/-- `DRST` (R124). -/
def execDrst (s : State) : Host.Outcome State Fault Refusal :=
  whenIdle s fun t => t.withDirection (doDrst t.inp t.cfg)

end Sys2Proof.Machine
end

