-- ==== Sys2Proof/Machine/PulseCounter.lean ====
section
/-! DEFINITION. Incremental Pulse Counter: PTICK, PRST, SPDUPD and `cnt_deg` (41_pulse_counter.md). -/

namespace Sys2Proof.Machine

/-- `do_PTICK` (R110): one count, saturating, exactly when `TOG` toggles; the two readings are stored. -/
def doPtick (x : Inputs) (c : Counter) : Counter :=
  { c with
    cnt := if togAfter x c.tog = c.tog then c.cnt else incSat32 c.cnt
    tog := togAfter x c.tog
    chl := x.ch2 ++ x.ch1 }

/-- `do_PRST` (R111). -/
def doPrst : Counter := { cnt := 0, tog := 0, chl := 0, cntlast := 0, spd := 0 }

/-- `do_SPDUPD` (R112): revolutions per minute over the nominal window `TSPD`. -/
def doSpdupd (k : Tunables) (c : Counter) : Counter :=
  { c with
    spd := toFx (divsat (((c.cnt.toNat : Int) - c.cntlast.toNat) * Config.msPerMinute * Config.fxOne)
      ((k.cpr.toNat : Int) * k.tspd.toNat))
    cntlast := c.cnt }

/-- `cnt_deg()` as an `fx` raw value (R113). -/
def cntDeg (k : Tunables) (c : Counter) : Int :=
  divsat ((c.cnt.toNat : Int) * 360 * Config.fxOne) k.cpr.toNat

/-- `PTICK` (R110). -/
def execPtick (s : State) : Host.Outcome State Fault Refusal :=
  whenIdle s fun t => t.withCounter (doPtick t.inp t.counter)

/-- `PRST` (R111). -/
def execPrst (s : State) : Host.Outcome State Fault Refusal :=
  whenIdle s fun t => t.withCounter doPrst

/-- `SPDUPD` (R112). -/
def execSpdupd (s : State) : Host.Outcome State Fault Refusal :=
  whenIdle s fun t => t.withCounter (doSpdupd t.cfg t.counter)

end Sys2Proof.Machine
end

