-- ==== Sys2Proof/Machine/PiController.lean ====
section
/-! DEFINITION. PI Controller: PIGAIN, PISTEP, PIRST and the measurement `TICK` hands to it (43_pi_controller.md).
The actuation outputs `duty` and `dir_sel` are in Machine/Ops.lean, since the register space shows them. -/

namespace Sys2Proof.Machine

/-- `do_PIGAIN` (R130). -/
def doPigain (k : Tunables) (cmd : Fx) (p : Controller) : Controller :=
  { p with kp := toFx (divsat (k.k.toInt * k.kref.toInt) cmd.toInt) }

/-- The anti-windup forced value, not clamped (R131). -/
def forcedOut (k : Tunables) : Fx := if k.mode = 1 then k.base else 0

/-- The integral after a step below the setpoint (R131), from the new error. -/
def integAfter (p : Controller) (err : Int) : Int := sat48 (p.integ.toInt + err)

/-- The output after a step below the setpoint (R131): exact sum, floor, clamp. -/
def outAfter (k : Tunables) (p : Controller) (err integ : Int) : Int :=
  clamp (floor16 (p.kp.toInt * err + k.ki.toInt * integ)) k.outmin.toInt k.outmax.toInt

/-- `do_PISTEP(sp, m)` on raw values (R131). -/
def doPistep (k : Tunables) (sp m : Int) (p : Controller) : Controller :=
  let err := sat32 (sp - m)
  if sp ≤ m then { p with err := toFx err, integ := 0, out := forcedOut k }
  else
    { p with
      err := toFx err
      integ := toFx48 (integAfter p err)
      out := toFx (outAfter k p err (integAfter p err)) }

/-- `do_PIRST` (R132). -/
def doPirst (p : Controller) : Controller := { p with integ := 0 }

/-- `meas(dv)` (R133), an `fx` raw value. -/
def meas (dv : Int) (s : State) : Int :=
  if s.cfg.mode = 1 then s.counter.spd.toInt
  else if s.cfg.msrc = 0 then (if s.sequencer.rev = 1 then -dv else dv)
  else cntDeg s.cfg s.counter

/-- `PIGAIN` (R130). -/
def execPigain (s : State) : Host.Outcome State Fault Refusal :=
  whenIdle s fun t => t.withPi (doPigain t.cfg t.sequencer.cmd t.pi)

/-- `PISTEP` (R131): the setpoint is `CMD`, the measurement the operand. -/
def execPistep (d : Word) (s : State) : Host.Outcome State Fault Refusal :=
  whenIdle s fun t => t.withPi (doPistep t.cfg t.sequencer.cmd.toInt (asS32 d) t.pi)

/-- `PIRST` (R132). -/
def execPirst (s : State) : Host.Outcome State Fault Refusal :=
  whenIdle s fun t => t.withPi (doPirst t.pi)

end Sys2Proof.Machine
end

