-- ==== Sys2Proof/Machine/Sequencer.lean ====
section
/-! DEFINITION. Trial Sequencer: SETCMD, START, TICK (44_sequencer.md). -/

namespace Sys2Proof.Machine

/-- The sequencer registers `SETCMD` leaves (R140): magnitude and reverse flag. -/
def doSetcmd (v : Int) (q : Sequencer) : Sequencer :=
  { q with cmd := toFx (if v < 0 then sat32 (-v) else v), rev := revFlag v }

/-- The controller registers a trial boundary leaves (R144, R145): `do_PIRST`, then `ERR` and `OUT` to 0. -/
def clearPi (p : Controller) : Controller := { doPirst p with err := 0, out := 0 }

/-- The sequencer registers at trial entry (R144). -/
def entrySequencer (x : Inputs) (q : Sequencer) : Sequencer :=
  { q with
    seq := .running
    tstart := x.now
    elapsed := 0
    tlastpi := x.now
    tlastdir := x.now
    tlastspd := x.now }

/-- `enter_running(in)` (R144). -/
def enterRunning (s : State) : State :=
  (((((s.withTracker (doCal s.inp)).withCounter doPrst).withDirection (doDrst s.inp s.cfg)).withPi
    (doPigain s.cfg s.sequencer.cmd (clearPi s.pi))).withSequencer (entrySequencer s.inp s.sequencer))

/-- `end_trial_reset(in)` (R145). -/
def endTrialReset (s : State) : State :=
  ((s.withCounter doPrst).withDirection (doDrst s.inp s.cfg)).withPi (clearPi s.pi)

/-- `REP > MAXREPS` (R141, R143, R147). -/
def repsExhausted (s : State) : Bool := decide (s.cfg.maxreps.toNat < s.sequencer.rep.toNat)

/-- The state DONE, or the next trial, by the rep index (R141, R147 sub-step 4). -/
def doneOrEnter (s : State) : State :=
  if repsExhausted s then s.withSequencer { s.sequencer with seq := .done } else enterRunning s

/-- Sub-step 1 of R143. -/
def tickElapsed (s : State) : State :=
  s.withSequencer { s.sequencer with elapsed := since s.inp s.sequencer.tstart }

/-- Sub-step 2 of R143. -/
def tickCount (s : State) : State := s.withCounter (doPtick s.inp s.counter)

/-- Sub-step 4 of R143. -/
def tickSpeed (s : State) : State :=
  if s.cfg.mode = 1 ∧ due s.inp s.sequencer.tlastspd s.cfg.tspd then
    ((s.withCounter (doSpdupd s.cfg s.counter)).withSequencer { s.sequencer with tlastspd := s.inp.now }).raiseSpd
  else s

/-- Sub-step 5 of R143. -/
def tickTally (s : State) : State := s.withDirection (doDhsmp s.inp s.direction)

/-- The evaluation of the selected strategy (R143 sub-step 6). -/
def evalDirection (dv : Int) (s : State) : State :=
  if s.cfg.dstrat = 0 then doDthr dv s else s.withDirection (doDhcls s.cfg s.direction)

/-- The time stamp of sub-step 6 of R143. -/
def stampDirection (s : State) : State := s.withSequencer { s.sequencer with tlastdir := s.inp.now }

/-- Sub-step 6 of R143. -/
def tickDirection (dv : Int) (s : State) : State :=
  if ¬ latched s.direction ∧ due s.inp s.sequencer.tlastdir s.cfg.tdir then stampDirection (evalDirection dv s)
  else s

/-- Sub-step 7 of R143. -/
def tickControl (dv : Int) (s : State) : State :=
  if due s.inp s.sequencer.tlastpi s.cfg.tctrl then
    (s.withPi (doPistep s.cfg s.sequencer.cmd.toInt (meas dv s) s.pi)).withSequencer
      { s.sequencer with tlastpi := s.inp.now }
  else s

/-- Sub-step 8 of R143. -/
def tickExit (s : State) : State :=
  if s.cfg.ttrial.toNat ≤ s.sequencer.elapsed.toNat ∨ repsExhausted s then
    s.withSequencer { s.sequencer with seq := .reporting }
  else s

/-- `TICK` in RUNNING (R143): the eight sub-steps in order; sub-step 3 is `dv`, which is not stored. -/
def tickRunning (s : State) : State :=
  let t := tickCount (tickElapsed s)
  let dv := disp t.inp.g t.tracker.ref
  tickExit (tickControl dv (tickDirection dv (tickTally (tickSpeed t))))

/-- The report of a trial (R147 sub-step 1). -/
def makeReport (s : State) : Report :=
  { rptAbs := toFx (disp s.inp.g s.tracker.ref)
    rptInc := toFx (cntDeg s.cfg s.counter)
    rptDiff := toFx (sat32 (disp s.inp.g s.tracker.ref - cntDeg s.cfg s.counter))
    rptDir := s.direction.dir
    rptSpd := s.counter.spd
    rptRep := s.sequencer.rep
    rptn := incSat32 s.report.rptn }

/-- `TICK` in REPORTING (R147): report, next rep index, trial-end reset, next trial or DONE. -/
def tickReporting (s : State) : State :=
  let r := (s.withReport (makeReport s)).raiseRpt
  doneOrEnter (endTrialReset (r.withSequencer { r.sequencer with rep := incSat32 r.sequencer.rep }))

/-- `SETCMD` (R140). -/
def execSetcmd (d : Word) (s : State) : Host.Outcome State Fault Refusal :=
  whenIdle s fun t => t.withSequencer (doSetcmd (asS32 d) t.sequencer)

/-- `START` (R141). -/
def execStart (s : State) : Host.Outcome State Fault Refusal :=
  whenIdle s fun t => doneOrEnter (t.withSequencer { t.sequencer with rep := 1 })

/-- `TICK` (R142): accepted in every state; in IDLE and DONE it changes nothing (R148). -/
def execTick (s : State) : Host.Outcome State Fault Refusal :=
  match s.sequencer.seq with
  | .idle => .next s.quiet
  | .running => .next (tickRunning s.quiet)
  | .reporting => .next (tickReporting s.quiet)
  | .done => .next s.quiet

end Sys2Proof.Machine
end

