-- ==== Sys2Proof/Machine/Dispatch.lean ====
section
/-! DEFINITION. Dispatch: one arm per operation, each a direct call of its meaning. -/

namespace Sys2Proof.Machine

def exec (i : Instr) (s : State) : Host.Outcome State Fault Refusal :=
  match i with
  | .nop => Sys2Proof.Machine.execNop s
  | .tick => Sys2Proof.Machine.execTick s
  | .start => Sys2Proof.Machine.execStart s
  | .setcmd d => Sys2Proof.Machine.execSetcmd d s
  | .rdreg a => Sys2Proof.Machine.execRdreg a s
  | .wrreg a d => Sys2Proof.Machine.execWrreg a d s
  | .gdec => Sys2Proof.Machine.execGdec s
  | .cal => Sys2Proof.Machine.execCal s
  | .rdisp => Sys2Proof.Machine.execRdisp s
  | .ptick => Sys2Proof.Machine.execPtick s
  | .prst => Sys2Proof.Machine.execPrst s
  | .spdupd => Sys2Proof.Machine.execSpdupd s
  | .dthr => Sys2Proof.Machine.execDthr s
  | .dhsmp => Sys2Proof.Machine.execDhsmp s
  | .dhcls => Sys2Proof.Machine.execDhcls s
  | .drst => Sys2Proof.Machine.execDrst s
  | .pigain => Sys2Proof.Machine.execPigain s
  | .pistep d => Sys2Proof.Machine.execPistep d s
  | .pirst => Sys2Proof.Machine.execPirst s

end Sys2Proof.Machine
end

