-- ==== Sys2Proof/Machine/Step.lean ====
section
/-! DEFINITION. The step of the machine (00_scope.md rule R6) and where the host places a word. -/

namespace Sys2Proof.Machine

/-- One step (R6), atomic (DEDUCED, safe, log entry 10): take the next word and its sample; reset overrides the command (R190); decode; run. -/
def step (s : State) : Host.Outcome State Fault Refusal :=
  match takeArrival s with
  | none => .next (idleStep s)
  | some (a, t) =>
    if a.inp.rst then .next (resetCore t)
    else
      match decode a.word with
      | .ok i => exec i t
      | .error _ => .next (runReserved t)

/-- The state with a word placed as the next one on the command port, so that the next step runs it: the sample
of the word it replaces is kept (the sample held, if none waits), with reset not asserted (DESIGN CHOICE, safe, log entry 18). -/
def State.withFetchWord (s : State) (nbits w : Nat) : State :=
  match s.port with
  | [] => s.withPort [{ word := BitVec.ofNat 48 (w % 2 ^ nbits), inp := { s.inp with rst := false } }]
  | a :: rest =>
    s.withPort ({ word := BitVec.ofNat 48 (w % 2 ^ nbits), inp := { a.inp with rst := false } } :: rest)

end Sys2Proof.Machine
end

