-- ==== Sys2Proof/Machine/Assembler.lean ====
section
/-! DEFINITION. The assembler's programs as arriving words (30_encoding.md rules R87, R88): each item with the input
fields written after it in braces; fields left out keep their previous value. -/

namespace Sys2Proof.Machine

/-- The input fields written after an operation (R87). There is none for `rst`: a source line cannot assert reset (DESIGN
CHOICE, safe, log entry 17). -/
structure SampleEdit where
  g : Option (BitVec 5)
  ch1 : Option (BitVec 1)
  ch2 : Option (BitVec 1)
  now : Option (BitVec 32)
  ticks : Option (BitVec 32)
  deriving DecidableEq, Repr

/-- The sample of a step from the previous one: fields left out keep their value (R87). `rst` alone does not: it is not
asserted on an assembled line, whatever it was in the sample before (DESIGN CHOICE, safe, log entry 17). -/
def applyEdit (x : Inputs) (e : SampleEdit) : Inputs :=
  { g := e.g.getD x.g
    ch1 := e.ch1.getD x.ch1
    ch2 := e.ch2.getD x.ch2
    now := e.now.getD x.now
    ticks := e.ticks.getD x.ticks
    rst := false }

/-- The arrivals of a program, starting from the sample before it; both words of a pseudo-instruction see the
sample written after it (DESIGN CHOICE, safe, log entry 17). `none` if the assembler refuses a line. -/
def assembleProgram (x : Inputs) : List (AsmItem × SampleEdit) → Option (List Arrival)
  | [] => some []
  | (item, e) :: rest =>
    match item.assemble, assembleProgram (applyEdit x e) rest with
    | some is, some tail => some (is.map (fun i => { word := encode i, inp := applyEdit x e }) ++ tail)
    | _, _ => none

end Sys2Proof.Machine
end

