-- ==== Sys2Proof/Safety.lean ====
section
/-! DEFINITION. The terms the claims use: what holds in every reachable state (10_state.md rule R56), the ring of
positions (40_gray_tracker.md), the register map as one table of values (10_state.md rules R41, R50, R51) and the
words the platform puts on the port. -/

namespace Sys2Proof.Machine

/-- The position a Gray pattern stands for, as R12 unrolls the decoder's loop for five bits. -/
def pinPosition (g : BitVec 5) : BitVec 5 := g ^^^ (g >>> 1) ^^^ (g >>> 2) ^^^ (g >>> 3) ^^^ (g >>> 4)

/-- The steps from position `r` to position `p`, corrected once into −16..16 (R102). -/
def ringSteps (p r : BitVec 5) : Int :=
  if (p.toNat : Int) - r.toNat > 16 then (p.toNat : Int) - r.toNat - 32
  else if (p.toNat : Int) - r.toNat < -16 then (p.toNat : Int) - r.toNat + 32
  else (p.toNat : Int) - r.toNat

/-- The displacement of the pins from a reference, raw `fx` degrees (R102). -/
def ringDegrees (g r : BitVec 5) : Int := 737280 * ringSteps (pinPosition g) r

/-- A register holds one of the 33 displacement values d × 11.25°, −16 ≤ d ≤ 16 (R56 (a)). -/
def OnRing (x : Fx) : Prop := x.toInt % 737280 = 0 ∧ -11796480 ≤ x.toInt ∧ x.toInt ≤ 11796480

/-- How the rep index and the number of reports fit the sequencer's state (R56 (e), (f); R32). -/
def RepsFit (s : State) : Prop :=
  match s.sequencer.seq with
  | .idle => s.sequencer.rep.toNat = 1 ∧ s.report.rptn.toNat = 0
  | .running => s.sequencer.rep.toNat ≤ s.cfg.maxreps.toNat ∧ s.report.rptn.toNat + 1 = s.sequencer.rep.toNat
  | .reporting => s.sequencer.rep.toNat ≤ s.cfg.maxreps.toNat ∧ s.report.rptn.toNat + 1 = s.sequencer.rep.toNat
  | .done => s.sequencer.rep.toNat = s.cfg.maxreps.toNat + 1 ∧ s.report.rptn.toNat = s.cfg.maxreps.toNat

/-- What holds of the registers in every reachable state (R56 (a), (b), (c), (e), (f), (h); R32; R112 (a);
R131 (b)). -/
structure CoreInv (s : State) : Prop where
  prevang_onRing : OnRing s.tracker.prevang
  dir_produced : s.direction.dir ≠ 3
  cmd_nonneg : 0 ≤ s.sequencer.cmd.toInt
  cntlast_le_cnt : s.counter.cntlast.toNat ≤ s.counter.cnt.toNat
  spd_nonneg : 0 ≤ s.counter.spd.toInt
  integ_nonneg : 0 ≤ s.pi.integ.toInt
  rptAbs_onRing : OnRing s.report.rptAbs
  rptInc_nonneg : 0 ≤ s.report.rptInc.toInt
  rptDiff_saturated :
    s.report.rptDiff.toInt = max (-2147483648) (min (s.report.rptAbs.toInt - s.report.rptInc.toInt) 2147483647)
  rptDir_produced : s.report.rptDir ≠ 3
  rptSpd_nonneg : 0 ≤ s.report.rptSpd.toInt
  rptRep_eq_rptn : s.report.rptRep = s.report.rptn
  reps_fit : RepsFit s

/-- The registers of a state, without the model's own fields (R20): two states agree on them. -/
def SameRegisters (s t : State) : Prop :=
  s.tracker = t.tracker ∧ s.counter = t.counter ∧ s.direction = t.direction ∧ s.pi = t.pi ∧
    s.sequencer = t.sequencer ∧ s.report = t.report ∧ s.cfg = t.cfg

/-- The datapath block of the register map, 0x00 to 0x0E (R50): number and value read. -/
def datapathTable (s : State) : List (Nat × Nat) :=
  [(0x00, s.tracker.ref.toNat), (0x01, s.tracker.prevang.toNat), (0x02, s.counter.cnt.toNat),
   (0x03, s.counter.tog.toNat), (0x04, s.counter.chl.toNat), (0x05, s.counter.cntlast.toNat),
   (0x06, s.counter.spd.toNat), (0x07, s.direction.dir.toNat), (0x08, s.direction.tally.toNat),
   (0x09, s.direction.pch2.toNat), (0x0A, s.pi.err.toNat), (0x0B, s.pi.integ.toNat % 4294967296),
   (0x0C, (s.pi.integ.toInt / 4294967296 % 4294967296).toNat), (0x0D, s.pi.out.toNat), (0x0E, s.pi.kp.toNat)]

/-- The code of the sequencer's state (R30). -/
def seqNumber : Seq → Nat
  | .idle => 0
  | .running => 1
  | .reporting => 2
  | .done => 3

/-- The sequencer block, 0x10 to 0x18 (R50). -/
def sequencerTable (s : State) : List (Nat × Nat) :=
  [(0x10, seqNumber s.sequencer.seq), (0x11, s.sequencer.rep.toNat), (0x12, s.sequencer.tstart.toNat),
   (0x13, s.sequencer.elapsed.toNat), (0x14, s.sequencer.tlastpi.toNat), (0x15, s.sequencer.tlastdir.toNat),
   (0x16, s.sequencer.tlastspd.toNat), (0x17, s.sequencer.rev.toNat), (0x18, s.sequencer.cmd.toNat)]

/-- The report block, 0x20 to 0x26 (R50). -/
def reportTable (s : State) : List (Nat × Nat) :=
  [(0x20, s.report.rptAbs.toNat), (0x21, s.report.rptInc.toNat), (0x22, s.report.rptDiff.toNat),
   (0x23, s.report.rptDir.toNat), (0x24, s.report.rptSpd.toNat), (0x25, s.report.rptRep.toNat),
   (0x26, s.report.rptn.toNat)]

/-- The configuration block, 0x40 to 0x52 (R41): number, width, content. -/
def configTable (c : Tunables) : List (Nat × Nat × Nat) :=
  [(0x40, 1, c.mode.toNat), (0x41, 1, c.dstrat.toNat), (0x42, 1, c.msrc.toNat), (0x43, 32, c.k.toNat),
   (0x44, 32, c.kref.toNat), (0x45, 32, c.ki.toNat), (0x46, 32, c.outmin.toNat), (0x47, 32, c.outmax.toNat),
   (0x48, 32, c.base.toNat), (0x49, 32, c.thresh.toNat), (0x4A, 16, c.hyshi.toNat), (0x4B, 16, c.hyslo.toNat),
   (0x4C, 16, c.tally0.toNat), (0x4D, 16, c.cpr.toNat), (0x4E, 32, c.tctrl.toNat), (0x4F, 32, c.tdir.toNat),
   (0x50, 32, c.tspd.toNat), (0x51, 32, c.ttrial.toNat), (0x52, 16, c.maxreps.toNat)]

/-- The views, 0x30, 0x31 and 0x60 to 0x62 (R50, R51). -/
def viewTable (s : State) : List (Nat × Nat) :=
  [(0x30, (duty s).toNat), (0x31, s.sequencer.rev.toNat),
   (0x60, 64 * s.inp.ch2.toNat + 32 * s.inp.ch1.toNat + s.inp.g.toNat),
   (0x61, s.inp.now.toNat), (0x62, s.inp.ticks.toNat)]

/-- The whole register space (R60, R64): every mapped number with the value it reads. -/
def registerTable (s : State) : List (Nat × Nat) :=
  datapathTable s ++ sequencerTable s ++ reportTable s ++ viewTable s ++
    (configTable s.cfg).map (fun e => (e.1, e.2.2))

/-- The numbers of the 19 configuration registers and their widths (R41). -/
def configWidths : List (Nat × Nat) := (configTable Tunables.reset).map (fun e => (e.1, e.2.1))

/-- How often a bit changes along a list, starting from `x` (R114). -/
def changes : BitVec 1 → List (BitVec 1) → Nat
  | _, [] => 0
  | x, y :: ys => (if x = y then 0 else 1) + changes y ys

/-- The last element of a list, or `x` (R114). -/
def lastBit : BitVec 1 → List (BitVec 1) → BitVec 1
  | x, [] => x
  | _, y :: ys => lastBit y ys

/-- A word on the port that is neither a `TICK` nor taken under reset (R150, R200). -/
def NoTick (a : Arrival) : Prop := a.inp.rst = false ∧ decode a.word ≠ .ok .tick

/-- The operations accepted in every sequencer state (R86). -/
def acceptedAlways : Instr → Bool
  | .nop => true
  | .tick => true
  | .rdreg _ => true
  | .start | .setcmd _ | .wrreg _ _ | .gdec | .cal | .rdisp | .ptick | .prst | .spdupd
  | .dthr | .dhsmp | .dhcls | .drst | .pigain | .pistep _ | .pirst => false

end Sys2Proof.Machine
end

