-- ==== Sys2Proof/Certificates/Slice0/Obligations.lean ====
section
/-! DEFINITION. The statements about the core, for the provers. A next state is given whole, as the state before
with the components that change: what an equation `t = { s with … }` does not name is unchanged, so each such
equation is also the operation's frame, over every register of the register space (R60). -/

open Sys2Proof Sys2Proof.Machine

/-! ## Words -/

/-- Decode and encode agree on every operation with every operand (R80, R83); the encoder's fields are in their
places and the ones a format does not use are zero (R82). -/
def Obligations.DecodeOfEncodeIsTheInstruction : Prop :=
  ∀ i : Instr, decode (encode i) = .ok i ∧ (encode i).extractLsb' 40 8 = i.opcode ∧
    (i.format = .z ∨ i.format = .d → (encode i).extractLsb' 32 8 = 0#8) ∧
    (i.format = .z ∨ i.format = .a → (encode i).extractLsb' 0 32 = 0#32)

/-- R82: what a word decodes to depends only on `op` and on the fields the operation's format uses; the assembler
writes the others as zero. -/
def Obligations.UnusedFieldsAreIgnored : Prop :=
  (∀ (w v : CommandWord) (i : Instr), decode w = .ok i → v.extractLsb' 40 8 = w.extractLsb' 40 8 →
    (i.format = .a ∨ i.format = .ad → v.extractLsb' 32 8 = w.extractLsb' 32 8) →
    (i.format = .d ∨ i.format = .ad → v.extractLsb' 0 32 = w.extractLsb' 0 32) →
    decode v = .ok i) ∧
  (∀ i : Instr, (i.format = .z ∨ i.format = .d → (encode i).extractLsb' 32 8 = 0#8) ∧
    (i.format = .z ∨ i.format = .a → (encode i).extractLsb' 0 32 = 0#32))

/-- The opcode map of R83, row by row: a word that matches a row's `match` under the mask is that row's operation,
its operands taken from bits 39:32 and 31:0. -/
def Obligations.OpcodeMapRowByRow : Prop :=
  ∀ w : CommandWord,
    (w &&& 0xFF0000000000#48 = 0x000000000000#48 → decode w = .ok .nop) ∧
    (w &&& 0xFF0000000000#48 = 0x010000000000#48 → decode w = .ok .tick) ∧
    (w &&& 0xFF0000000000#48 = 0x020000000000#48 → decode w = .ok .start) ∧
    (w &&& 0xFF0000000000#48 = 0x030000000000#48 → decode w = .ok (.setcmd (w.extractLsb' 0 32))) ∧
    (w &&& 0xFF0000000000#48 = 0x040000000000#48 → decode w = .ok (.rdreg (w.extractLsb' 32 8))) ∧
    (w &&& 0xFF0000000000#48 = 0x050000000000#48 →
      decode w = .ok (.wrreg (w.extractLsb' 32 8) (w.extractLsb' 0 32))) ∧
    (w &&& 0xFF0000000000#48 = 0x100000000000#48 → decode w = .ok .gdec) ∧
    (w &&& 0xFF0000000000#48 = 0x110000000000#48 → decode w = .ok .cal) ∧
    (w &&& 0xFF0000000000#48 = 0x120000000000#48 → decode w = .ok .rdisp) ∧
    (w &&& 0xFF0000000000#48 = 0x200000000000#48 → decode w = .ok .ptick) ∧
    (w &&& 0xFF0000000000#48 = 0x210000000000#48 → decode w = .ok .prst) ∧
    (w &&& 0xFF0000000000#48 = 0x220000000000#48 → decode w = .ok .spdupd) ∧
    (w &&& 0xFF0000000000#48 = 0x300000000000#48 → decode w = .ok .dthr) ∧
    (w &&& 0xFF0000000000#48 = 0x310000000000#48 → decode w = .ok .dhsmp) ∧
    (w &&& 0xFF0000000000#48 = 0x320000000000#48 → decode w = .ok .dhcls) ∧
    (w &&& 0xFF0000000000#48 = 0x330000000000#48 → decode w = .ok .drst) ∧
    (w &&& 0xFF0000000000#48 = 0x400000000000#48 → decode w = .ok .pigain) ∧
    (w &&& 0xFF0000000000#48 = 0x410000000000#48 → decode w = .ok (.pistep (w.extractLsb' 0 32))) ∧
    (w &&& 0xFF0000000000#48 = 0x420000000000#48 → decode w = .ok .pirst)

/-- A few words of 95_test_vectors.md T16 decode as its text says (a sanity statement). -/
def Obligations.SampleWordsDecode : Prop :=
  decode 0x0300FFE20000#48 = .ok (.setcmd (BitVec.ofInt 32 (-1966080))) ∧
  decode 0x042200000000#48 = .ok (.rdreg Reg.rptDiff.number) ∧
  decode 0x054D00010064#48 = .ok (.wrreg Reg.cpr.number 0x00010064#32) ∧
  decode 0x4100FFF4C000#48 = .ok (.pistep (BitVec.ofInt 32 (-737280))) ∧
  decode 0x01FFFFFFFFFF#48 = .ok .tick ∧
  decode 0x7F0000000000#48 = .error (.reservedOpcode 0x7F#8)

/-- R84: exactly the listed values of `op` are reserved, and a reserved word changes no register, gives no response
and raises no strobe, in every sequencer state; only the sample and the word are taken from the port. -/
def Obligations.ReservedWordsHaveNoEffect : Prop :=
  ∀ (w : CommandWord) (op : Nat), op = (w.extractLsb' 40 8).toNat →
    (0x06 ≤ op ∧ op ≤ 0x0F ∨ 0x13 ≤ op ∧ op ≤ 0x1F ∨ 0x23 ≤ op ∧ op ≤ 0x2F ∨ 0x34 ≤ op ∧ op ≤ 0x3F ∨
        0x43 ≤ op ∧ op ≤ 0xFF ↔ ∀ i : Instr, decode w ≠ .ok i) ∧
    ((∀ i : Instr, decode w ≠ .ok i) → ∀ (s : State) (x : Inputs) (rest : List Arrival), x.rst = false →
      s.port = { word := w, inp := x } :: rest →
      step s = .next { s with inp := x, port := rest, outputs := Outputs.none })

/-- R88: the two pseudo-instructions, on every operand the assembler accepts. -/
def Obligations.PseudoInstructionsExpand : Prop :=
  (∀ v : AsmValue, v.wellFormed = true →
    AsmItem.assemble (.run v) = some [.setcmd v.bits, .start] ∧
    (AsmLine.assemble { mnemonic := .setcmd, reg := none, value := some v } = some (.setcmd v.bits)) ∧
    (AsmLine.assemble { mnemonic := .start, reg := none, value := none } = some .start)) ∧
  AsmItem.assemble .rdinteg = some [.rdreg 0x0B#8, .rdreg 0x0C#8]

/-- R87: a line that has the operands of its mnemonic's format assembles, to a word of that format with the operands
in their fields; any other line is the assembler's error. What a value may be is in part the model's choice (log
entry 17). -/
def Obligations.AssembledLinesCarryTheirOperands : Prop :=
  (∀ l : AsmLine, l.wellFormed = true → ∃ i : Instr, l.assemble = some i ∧ i.format = l.mnemonic.format ∧
    decode (encode i) = .ok i ∧
    (∀ r : AsmReg, l.reg = some r → (encode i).extractLsb' 32 8 = r.bits) ∧
    (∀ v : AsmValue, l.value = some v → (encode i).extractLsb' 0 32 = v.bits)) ∧
  (∀ l : AsmLine, l.wellFormed = false → l.assemble = none)

/-- R87: what the operands of a line stand for: a pattern is itself, a decimal integer its two's complement, `fx(q)` the
raw value q × 65536, here with q = digits / 10^places. The upper bound of a decimal integer is the model's choice (log
entry 17). -/
def Obligations.AssembledValuesStandForTheirText : Prop :=
  (∀ n : Nat, AsmValue.wellFormed (.pattern n) = true → (AsmValue.pattern n).bits.toNat = n) ∧
  (∀ z : Int, AsmValue.wellFormed (.integer z) = true →
    (z < 2 ^ 31 → (AsmValue.integer z).bits.toInt = z) ∧
    (2 ^ 31 ≤ z → ((AsmValue.integer z).bits.toNat : Int) = z)) ∧
  (∀ (digits : Int) (places : Nat), AsmValue.wellFormed (.fx digits places) = true →
    (AsmValue.fx digits places).bits.toInt * 10 ^ places = digits * 65536) ∧
  (∀ n : Nat, AsmReg.wellFormed (.number n) = true → (AsmReg.number n).bits.toNat = n) ∧
  (∀ r : Reg, regAt (AsmReg.name r).bits = some r)

/-! ## The step -/

/-- A step runs the decoded command on the sample taken with it: the state that exec starts from is the state
before, with this step's sample and with the word gone from the port. -/
def Obligations.StepRunsTheDecodedCommand : Prop :=
  ∀ (s : State) (a : Arrival) (rest : List Arrival) (i : Instr), s.port = a :: rest → a.inp.rst = false →
    decode a.word = .ok i → step s = exec i { s with inp := a.inp, port := rest }

/-- A word placed by the host's `withFetchWord` is the one the next step runs. -/
def Obligations.PlacedWordRunsNext : Prop :=
  ∀ (s : State) (i : Instr), s.port = [] →
    step (s.withFetchWord 48 (encode i).toNat) = exec i { s with inp := { s.inp with rst := false }, port := [] }

/-- The model's choice for a step with no word on the port (log entry 3): no register changes and nothing is
produced. -/
def Obligations.EmptyPortLeavesTheRegisters : Prop :=
  ∀ s : State, s.port = [] →
    step s = .next { s with outputs := Outputs.none }

/-- R190 and R55: a step with `rst` asserted puts every register at its reset value whatever word it carries, with
`duty = 0`, `dir_sel = 0`, no response, no strobe; and it is the only way out of DONE. The last clause of the first part,
that the word presented under reset is consumed and the later words stay, is the model's reading (DEDUCED, log entry
4): R190 says only that no command is executed. -/
def Obligations.ResetRestoresEveryRegister : Prop :=
  (∀ (s : State) (a : Arrival) (rest : List Arrival), s.port = a :: rest → a.inp.rst = true →
    ∃ t, step s = .next t ∧
      t.tracker = { ref := 0, prevang := 0 } ∧
      t.counter = { cnt := 0, tog := 0, chl := 0, cntlast := 0, spd := 0 } ∧
      t.direction = { dir := 0, tally := 60, pch2 := 0 } ∧
      t.pi = { err := 0, integ := 0, out := 0, kp := 0 } ∧
      t.sequencer = { seq := .idle, rep := 1, tstart := 0, elapsed := 0, tlastpi := 0, tlastdir := 0, tlastspd := 0,
                      rev := 0, cmd := 0 } ∧
      t.report = { rptAbs := 0, rptInc := 0, rptDiff := 0, rptDir := 0, rptSpd := 0, rptRep := 0, rptn := 0 } ∧
      (t.cfg.mode = 0 ∧ t.cfg.dstrat = 0 ∧ t.cfg.msrc = 0 ∧ t.cfg.k = 65536#32 ∧ t.cfg.kref = 5898240#32 ∧
        t.cfg.ki = 0 ∧ t.cfg.outmin = 0 ∧ t.cfg.outmax = 16711680#32 ∧ t.cfg.base = 0 ∧ t.cfg.thresh = 737280#32 ∧
        t.cfg.hyshi = 100#16 ∧ t.cfg.hyslo = 20#16 ∧ t.cfg.tally0 = 60#16 ∧ t.cfg.cpr = 228#16 ∧
        t.cfg.tctrl = 10#32 ∧ t.cfg.tdir = 100#32 ∧ t.cfg.tspd = 100#32 ∧ t.cfg.ttrial = 4000#32 ∧
        t.cfg.maxreps = 10#16) ∧
      duty t = 0 ∧ dirSel t = 0 ∧ t.outputs = Outputs.none ∧ t.port = rest) ∧
  (∀ s t : State, s.sequencer.seq = .done → step s = .next t → t.sequencer.seq ≠ .done →
    ∃ (a : Arrival) (rest : List Arrival), s.port = a :: rest ∧ a.inp.rst = true)

/-- The state after reset as `RDREG` sees it (R55; 95_test_vectors.md T15): every number that does not read 0. -/
def Obligations.ResetStateReads : Prop :=
  ∀ a : RegNumber, (readReg State.reset a).toNat =
    match a.toNat with
    | 0x08 => 60
    | 0x11 => 1
    | 0x43 => 0x00010000
    | 0x44 => 0x005A0000
    | 0x47 => 0x00FF0000
    | 0x49 => 0x000B4000
    | 0x4A => 100
    | 0x4B => 20
    | 0x4C => 60
    | 0x4D => 228
    | 0x4E => 10
    | 0x4F => 100
    | 0x50 => 100
    | 0x51 => 4000
    | 0x52 => 10
    | _ => 0

/-- R170: no operation and no step raises an exception, fault or trap; every operation is total. -/
def Obligations.NothingFaults : Prop :=
  (∀ (i : Instr) (s : State), ∃ t, exec i s = .next t) ∧ (∀ s : State, ∃ t, step s = .next t)

/-- A step depends on the registers, the word and the sample that arrives with it, not on the sample or the outputs
of the step before (R6, R20). -/
def Obligations.StepForgetsTheOldSample : Prop :=
  ∀ (s : State) (x : Inputs) (o : Outputs), s.port ≠ [] → step { s with inp := x, outputs := o } = step s

/-- The steps use up the port in arrival order, one word each, and touch no later one (R6, R66 (a)). The port is the
model's form of the command port (log entry 1); that a word presented under reset is used up as well is the model's
reading (DEDUCED, log entry 4). -/
def Obligations.WordsLeaveInArrivalOrder : Prop :=
  ∀ s t : State, step s = .next t → t.port = s.port.tail ∧
    (∀ later : List Arrival, s.port ≠ [] → step { s with port := s.port ++ later } =
      .next { t with port := t.port ++ later })

/-- R204, R86: outside IDLE every operation but NOP, TICK and RDREG is ignored, with no state change, no response and
no strobe, and the host can read `SEQ` in every state. -/
def Obligations.CommandsOutsideIdleAreIgnored : Prop :=
  (∀ (i : Instr) (s : State), s.sequencer.seq ≠ .idle → acceptedAlways i = false →
    exec i s = .next { s with outputs := Outputs.none }) ∧
  (∀ s : State, exec (.rdreg 0x10#8) s =
    .next { s with outputs :=
      { resp := some (BitVec.ofNat 32 (seqNumber s.sequencer.seq)), rptStb := false, spdStb := false } })

/-! ## Host access -/

/-- R160. -/
def Obligations.NopDoesNothing : Prop :=
  (∀ w : CommandWord, w.extractLsb' 40 8 = 0x00#8 → decode w = .ok .nop) ∧
  (∀ s : State, exec .nop s = .next { s with outputs := Outputs.none })

/-- R161 over the whole register space of R50, R51, R52: RDREG completes in every state, for every number, writes
nothing, and answers the value of the register map; an unmapped number reads 0. -/
def Obligations.RdregReadsTheRegisterMap : Prop :=
  (∀ w : CommandWord, w.extractLsb' 40 8 = 0x04#8 → decode w = .ok (.rdreg (w.extractLsb' 32 8))) ∧
  (∀ (s : State) (a : RegNumber), ∃ v : Word,
    exec (.rdreg a) s = .next { s with outputs := { resp := some v, rptStb := false, spdStb := false } } ∧
    (∀ x : Nat, (a.toNat, x) ∈ registerTable s → v.toNat = x) ∧
    (a.toNat ∉ (registerTable s).map Prod.fst → v = 0))

/-- R162: in IDLE, WRREG stores the low bits of `d` into a configuration register, seen by the next read, and reads
of every other number are as before; any other number has no effect; outside IDLE it is ignored. -/
def Obligations.WrregWritesOneConfigurationRegister : Prop :=
  (∀ w : CommandWord, w.extractLsb' 40 8 = 0x05#8 →
    decode w = .ok (.wrreg (w.extractLsb' 32 8) (w.extractLsb' 0 32))) ∧
  (∀ (s : State) (a : RegNumber) (d : Word), s.sequencer.seq = .idle →
    ∃ c : Tunables, exec (.wrreg a d) s =
        .next { s with cfg := c, outputs := Outputs.none } ∧
      (∀ w : Nat, (a.toNat, w) ∈ configWidths →
        (readReg { s with cfg := c } a).toNat = d.toNat % 2 ^ w) ∧
      (∀ b : RegNumber, b ≠ a → readReg { s with cfg := c } b = readReg s b) ∧
      (a.toNat ∉ configWidths.map Prod.fst → c = s.cfg)) ∧
  (∀ (s : State) (a : RegNumber) (d : Word), s.sequencer.seq ≠ .idle →
    exec (.wrreg a d) s = .next { s with outputs := Outputs.none })

/-- R63: a read has no side effect and is repeatable; writing the same value twice equals writing it once. -/
def Obligations.ReadsAreHarmlessWritesIdempotent : Prop :=
  (∀ (a b : RegNumber) (s t : State), exec (.rdreg a) s = .next t →
    SameRegisters t s ∧ exec (.rdreg b) t = exec (.rdreg b) s) ∧
  (∀ (a : RegNumber) (d : Word) (s t : State), exec (.wrreg a d) s = .next t → exec (.wrreg a d) t = .next t)

/-- R36, R20: nothing is hidden from the register map: two states that read alike at every number and hold the same
sample have the same registers. -/
def Obligations.RegisterMapHidesNothing : Prop :=
  ∀ s t : State, s.inp = t.inp → (∀ a : RegNumber, readReg s a = readReg t a) → SameRegisters s t

/-- R40, R69: configuration changes only by a WRREG accepted in IDLE; so it cannot change while a trial runs. -/
def Obligations.OnlyWrregInIdleConfigures : Prop :=
  ∀ (i : Instr) (s t : State), exec i s = .next t → t.cfg ≠ s.cfg →
    s.sequencer.seq = .idle ∧ ∃ (a : RegNumber) (d : Word), i = .wrreg a d ∧ 0x40 ≤ a.toNat ∧ a.toNat ≤ 0x52

/-! ## Gray Decoder and Absolute Angle Tracker -/

/-- R12: the decoder is the bit recurrence, and a bijection with inverse `bin2gray`. -/
def Obligations.GrayDecodeRoundTrips : Prop :=
  ∀ g b : BitVec 5, bin2gray b = b ^^^ (b >>> 1) ∧ bin2gray (gray2bin g) = g ∧ gray2bin (bin2gray b) = b ∧ gray2bin g = pinPosition g ∧
    (gray2bin g)[4] = g[4] ∧ (gray2bin g)[3] = ((gray2bin g)[4] ^^ g[3]) ∧
    (gray2bin g)[2] = ((gray2bin g)[3] ^^ g[2]) ∧ (gray2bin g)[1] = ((gray2bin g)[2] ^^ g[1]) ∧
    (gray2bin g)[0] = ((gray2bin g)[1] ^^ g[0])

/-- R100. The position `p` is the one whose Gray code `p XOR (p >> 1)` is on the pins. -/
def Obligations.GdecAnswersThePosition : Prop :=
  (∀ w : CommandWord, w.extractLsb' 40 8 = 0x10#8 → decode w = .ok .gdec) ∧
  (∀ s : State, s.sequencer.seq = .idle → ∃ p : BitVec 5, p ^^^ (p >>> 1) = s.inp.g ∧
    exec .gdec s =
      .next { s with outputs := { resp := some (p.setWidth 32), rptStb := false, spdStb := false } }) ∧
  (∀ s : State, s.sequencer.seq ≠ .idle →
    exec .gdec s = .next { s with outputs := Outputs.none })

/-- R101. -/
def Obligations.CalCapturesTheReference : Prop :=
  (∀ w : CommandWord, w.extractLsb' 40 8 = 0x11#8 → decode w = .ok .cal) ∧
  (∀ s : State, s.sequencer.seq = .idle → ∃ p : BitVec 5, p ^^^ (p >>> 1) = s.inp.g ∧
    exec .cal s = .next { s with
      tracker := { ref := p, prevang := 0 }
      outputs := Outputs.none }) ∧
  (∀ s : State, s.sequencer.seq ≠ .idle →
    exec .cal s = .next { s with outputs := Outputs.none })

/-- R102: the response is `diff × 11.25°` with `diff` corrected once into −16..16; the 33 results are the multiples of
11.25° from −180° to +180°. -/
def Obligations.RdispAnswersTheDisplacement : Prop :=
  (∀ w : CommandWord, w.extractLsb' 40 8 = 0x12#8 → decode w = .ok .rdisp) ∧
  (∀ s : State, s.sequencer.seq = .idle → ∃ (p : BitVec 5) (v : Word), p ^^^ (p >>> 1) = s.inp.g ∧
    exec .rdisp s = .next { s with outputs := { resp := some v, rptStb := false, spdStb := false } } ∧
    v.toInt = (if (p.toNat : Int) - s.tracker.ref.toNat > 16 then (p.toNat : Int) - s.tracker.ref.toNat - 32
      else if (p.toNat : Int) - s.tracker.ref.toNat < -16 then (p.toNat : Int) - s.tracker.ref.toNat + 32
      else (p.toNat : Int) - s.tracker.ref.toNat) * 737280 ∧
    OnRing v) ∧
  (∀ s : State, s.sequencer.seq ≠ .idle →
    exec .rdisp s = .next { s with outputs := Outputs.none })

/-- R103 (3), derived in the spec: calibrating and then reading with the same pins yields 0. -/
def Obligations.CalThenRdispReadsZero : Prop :=
  ∀ s : State, s.sequencer.seq = .idle → ∃ t, exec .cal s = .next t ∧
    exec .rdisp t = .next { t with outputs := { resp := some 0, rptStb := false, spdStb := false } }

/-- R21 (its derived invariant): the reference moves only at calibration, by CAL in IDLE or by trial entry, never
inside a trial. -/
def Obligations.ReferenceFixedInsideATrial : Prop :=
  ∀ (i : Instr) (s t : State), exec i s = .next t → t.tracker.ref ≠ s.tracker.ref →
    (i = .cal ∧ s.sequencer.seq = .idle) ∨
    (i = .start ∧ s.sequencer.seq = .idle ∧ t.sequencer.seq = .running) ∨
    (i = .tick ∧ s.sequencer.seq = .reporting ∧ t.sequencer.seq = .running)

/-! ## Incremental Pulse Counter -/

/-- R110. -/
def Obligations.PtickCountsOneTransition : Prop :=
  (∀ w : CommandWord, w.extractLsb' 40 8 = 0x20#8 → decode w = .ok .ptick) ∧
  (∀ s : State, s.sequencer.seq = .idle → ∃ n : BitVec 32,
    exec .ptick s = .next { s with
      counter := { s.counter with cnt := n, tog := s.inp.ch1 ^^^ s.inp.ch2, chl := s.inp.ch2 ++ s.inp.ch1 }
      outputs := Outputs.none } ∧
    n.toNat = if (s.inp.ch1 ^^^ s.inp.ch2 = 1 ∧ s.counter.tog = 0) ∨ (s.inp.ch1 ^^^ s.inp.ch2 = 0 ∧ s.counter.tog = 1)
      then min (s.counter.cnt.toNat + 1) (2 ^ 32 - 1) else s.counter.cnt.toNat) ∧
  (∀ s : State, s.sequencer.seq ≠ .idle →
    exec .ptick s = .next { s with outputs := Outputs.none })

/-- R111. -/
def Obligations.PrstClearsTheCounter : Prop :=
  (∀ w : CommandWord, w.extractLsb' 40 8 = 0x21#8 → decode w = .ok .prst) ∧
  (∀ s : State, s.sequencer.seq = .idle →
    exec .prst s = .next { s with
      counter := { cnt := 0, tog := 0, chl := 0, cntlast := 0, spd := 0 }
      outputs := Outputs.none }) ∧
  (∀ s : State, s.sequencer.seq ≠ .idle →
    exec .prst s = .next { s with outputs := Outputs.none })

/-- R112. -/
def Obligations.SpdupdComputesTheWindowedSpeed : Prop :=
  (∀ w : CommandWord, w.extractLsb' 40 8 = 0x22#8 → decode w = .ok .spdupd) ∧
  (∀ s : State, s.sequencer.seq = .idle → ∃ v : Fx,
    exec .spdupd s = .next { s with
      counter := { s.counter with spd := v, cntlast := s.counter.cnt }
      outputs := Outputs.none } ∧
    v.toInt = divsat (((s.counter.cnt.toNat : Int) - s.counter.cntlast.toNat) * 60000 * 65536)
      ((s.cfg.cpr.toNat : Int) * s.cfg.tspd.toNat)) ∧
  (∀ s : State, s.sequencer.seq ≠ .idle →
    exec .spdupd s = .next { s with outputs := Outputs.none })

/-- R113: the count in degrees, a non-negative `fx` value. -/
def Obligations.CountToDegrees : Prop :=
  ∀ (k : Tunables) (c : Counter),
    cntDeg k c = (if k.cpr.toNat = 0 then (if c.cnt.toNat = 0 then 0 else 2 ^ 31 - 1)
      else min (c.cnt.toNat * 360 * 65536 / k.cpr.toNat) (2 ^ 31 - 1) : Nat)

/-- R56 (d), derived in the spec: while RUNNING no operation lowers `CNT`, and none raises it by more than one. -/
def Obligations.CountNeverFallsWithinATrial : Prop :=
  ∀ (i : Instr) (s t : State), s.sequencer.seq = .running → exec i s = .next t →
    s.counter.cnt.toNat ≤ t.counter.cnt.toNat ∧ t.counter.cnt.toNat ≤ s.counter.cnt.toNat + 1

/-- R114, derived in the spec: a run of `PTICK` words in IDLE raises the count by the number of changes of
`ch1 XOR ch2`, starting from `TOG`, as long as it does not saturate. -/
def Obligations.RunOfPticksCountsTheChanges : Prop :=
  ∀ (xs : List Inputs) (rest : List Arrival) (s : State), s.sequencer.seq = .idle →
    (∀ x ∈ xs, x.rst = false) →
    s.port = xs.map (fun x => { word := 0x200000000000#48, inp := x }) ++ rest →
    s.counter.cnt.toNat + changes s.counter.tog (xs.map (fun x => x.ch1 ^^^ x.ch2)) < 2 ^ 32 →
    ∃ t, Sys2Proof.core.run xs.length s = .next t ∧
      t.counter.cnt.toNat = s.counter.cnt.toNat + changes s.counter.tog (xs.map (fun x => x.ch1 ^^^ x.ch2)) ∧
      t.counter.tog = lastBit s.counter.tog (xs.map (fun x => x.ch1 ^^^ x.ch2)) ∧
      t.port = rest ∧ t.sequencer = s.sequencer ∧ t.tracker = s.tracker ∧ t.direction = s.direction ∧
      t.pi = s.pi ∧ t.report = s.report ∧ t.cfg = s.cfg ∧ t.counter.cntlast = s.counter.cntlast ∧
      t.counter.spd = s.counter.spd

/-! ## Direction Estimator -/

/-- R120: `delta` is normalised by one correction of 360° and compared strictly with the threshold; while latched the
operation has no effect at all. -/
def Obligations.DthrClassifiesOnce : Prop :=
  (∀ w : CommandWord, w.extractLsb' 40 8 = 0x30#8 → decode w = .ok .dthr) ∧
  (∀ s : State, s.sequencer.seq = .idle → s.direction.dir ≠ 0 →
    exec .dthr s = .next { s with outputs := Outputs.none }) ∧
  (∀ (s : State) (raw delta : Int), s.sequencer.seq = .idle → s.direction.dir = 0 →
    raw = ringDegrees s.inp.g s.tracker.ref - s.tracker.prevang.toInt →
    delta = (if raw > 11796480 then raw - 23592960 else if raw < -11796480 then raw + 23592960 else raw) →
    ∃ v : Fx, v.toInt = ringDegrees s.inp.g s.tracker.ref ∧
      exec .dthr s = .next { s with
        direction := { s.direction with dir := if delta > s.cfg.thresh.toInt then 1
                                               else if delta < -s.cfg.thresh.toInt then 2 else 0 }
        tracker := { s.tracker with prevang := v }
        outputs := Outputs.none }) ∧
  (∀ s : State, s.sequencer.seq ≠ .idle →
    exec .dthr s = .next { s with outputs := Outputs.none })

/-- R125, on the pure function of R120. -/
def Obligations.ClassifyFifteenDegrees : Prop :=
  classify 983040 737280 = 1 ∧ classify (-983040) 737280 = 2 ∧ classify 327680 737280 = 0

/-- R121: the four transition patterns of channel 2, the saturation at 0 and 65535, and the edge memory. -/
def Obligations.DhsmpMovesTheTally : Prop :=
  (∀ w : CommandWord, w.extractLsb' 40 8 = 0x31#8 → decode w = .ok .dhsmp) ∧
  (∀ s : State, s.sequencer.seq = .idle → ∃ n : BitVec 16,
    exec .dhsmp s = .next { s with
      direction := { s.direction with tally := n, pch2 := s.inp.ch2 }
      outputs := Outputs.none } ∧
    n.toNat =
      (if s.direction.pch2 = s.inp.ch2 then s.direction.tally.toNat
      else if s.inp.ch2 = s.inp.ch1 then min (s.direction.tally.toNat + 1) 65535
      else s.direction.tally.toNat - 1)) ∧
  (∀ s : State, s.sequencer.seq ≠ .idle →
    exec .dhsmp s = .next { s with outputs := Outputs.none })

/-- R123. -/
def Obligations.DhclsComparesTheTally : Prop :=
  (∀ w : CommandWord, w.extractLsb' 40 8 = 0x32#8 → decode w = .ok .dhcls) ∧
  (∀ s : State, s.sequencer.seq = .idle →
    exec .dhcls s = .next { s with
      direction := { s.direction with
        dir := if s.direction.dir ≠ 0 then s.direction.dir
               else if s.direction.tally.toNat > s.cfg.hyshi.toNat then 1
               else if s.direction.tally.toNat < s.cfg.hyslo.toNat then 2 else 0 }
      outputs := Outputs.none }) ∧
  (∀ s : State, s.sequencer.seq ≠ .idle →
    exec .dhcls s = .next { s with outputs := Outputs.none })

/-- R124. -/
def Obligations.DrstResetsTheEstimator : Prop :=
  (∀ w : CommandWord, w.extractLsb' 40 8 = 0x33#8 → decode w = .ok .drst) ∧
  (∀ s : State, s.sequencer.seq = .idle →
    exec .drst s = .next { s with
      direction := { dir := 0, tally := s.cfg.tally0, pch2 := s.inp.ch2 }
      outputs := Outputs.none }) ∧
  (∀ s : State, s.sequencer.seq ≠ .idle →
    exec .drst s = .next { s with outputs := Outputs.none })

/-- R122: once `DIR` is CW or CCW it changes only to STILL, and only by DRST, trial entry, trial end or reset,
whichever strategy wrote it. -/
def Obligations.LatchedDirectionIsSticky : Prop :=
  (∀ (i : Instr) (s t : State), exec i s = .next t → s.direction.dir ≠ 0 → t.direction.dir ≠ s.direction.dir →
    t.direction.dir = 0 ∧
      ((i = .drst ∧ s.sequencer.seq = .idle) ∨ (i = .start ∧ s.sequencer.seq = .idle ∧ t.sequencer.seq = .running) ∨
       (i = .tick ∧ s.sequencer.seq = .reporting))) ∧
  (∀ s t : State, step s = .next t → s.direction.dir ≠ 0 → t.direction.dir ≠ s.direction.dir →
    t.direction.dir = 0 ∧ ∃ (a : Arrival) (rest : List Arrival), s.port = a :: rest ∧
      (a.inp.rst = true ∨ decode a.word = .ok .drst ∨ decode a.word = .ok .start ∨ decode a.word = .ok .tick))

/-! ## PI Controller and actuation -/

/-- R11: the narrowing and division primitives. -/
def Obligations.ArithmeticPrimitives : Prop :=
  ∀ x n d lo hi : Int,
    sat32 x = max (-2 ^ 31) (min x (2 ^ 31 - 1)) ∧ sat48 x = max (-2 ^ 47) (min x (2 ^ 47 - 1)) ∧
    (d ≠ 0 → tdiv n d = n.sign * d.sign * ((n.natAbs / d.natAbs : Nat) : Int)) ∧
    divsat n 0 = (if n > 0 then 2 ^ 31 - 1 else if n < 0 then -2 ^ 31 else 0) ∧
    (d ≠ 0 → divsat n d = max (-2 ^ 31) (min (tdiv n d) (2 ^ 31 - 1))) ∧
    (floor16 x * 65536 ≤ x ∧ x < (floor16 x + 1) * 65536) ∧
    clamp x lo hi = max lo (min x hi) ∧ (lo > hi → clamp x lo hi = lo)

/-- R130. -/
def Obligations.PigainDividesByTheCommand : Prop :=
  (∀ w : CommandWord, w.extractLsb' 40 8 = 0x40#8 → decode w = .ok .pigain) ∧
  (∀ s : State, s.sequencer.seq = .idle → ∃ v : Fx,
    exec .pigain s = .next { s with
      pi := { s.pi with kp := v }
      outputs := Outputs.none } ∧
    v.toInt = divsat (s.cfg.k.toInt * s.cfg.kref.toInt) s.sequencer.cmd.toInt) ∧
  (∀ s : State, s.sequencer.seq ≠ .idle →
    exec .pigain s = .next { s with outputs := Outputs.none })

/-- R131: one PI step with setpoint `CMD` and measurement `d`. The new integral `g` is in units of 2^−16 and is used
by the output; the forced value is not clamped. -/
def Obligations.PistepRunsOneControlStep : Prop :=
  (∀ w : CommandWord, w.extractLsb' 40 8 = 0x41#8 → decode w = .ok (.pistep (w.extractLsb' 0 32))) ∧
  (∀ (s : State) (d : Word), s.sequencer.seq = .idle → ∃ (e : Fx) (g : Fx48) (u : Fx),
    exec (.pistep d) s = .next { s with
      pi := { s.pi with err := e, integ := g, out := u }
      outputs := Outputs.none } ∧
    e.toInt = sat32 (s.sequencer.cmd.toInt - d.toInt) ∧
    (d.toInt ≥ s.sequencer.cmd.toInt → g = 0 ∧ u = if s.cfg.mode = 1 then s.cfg.base else 0) ∧
    (d.toInt < s.sequencer.cmd.toInt → g.toInt = sat48 (s.pi.integ.toInt + e.toInt) ∧
      u.toInt = clamp ((s.pi.kp.toInt * e.toInt + s.cfg.ki.toInt * g.toInt) / 65536)
        s.cfg.outmin.toInt s.cfg.outmax.toInt)) ∧
  (∀ (s : State) (d : Word), s.sequencer.seq ≠ .idle →
    exec (.pistep d) s = .next { s with outputs := Outputs.none })

/-- R135: for every state, a measurement that reaches the setpoint clears the integral and forces the output. -/
def Obligations.AntiWindupFires : Prop :=
  ∀ (s : State) (d : Word), s.sequencer.seq = .idle → s.sequencer.cmd.toInt ≤ d.toInt →
    ∃ t, exec (.pistep d) s = .next t ∧ t.pi.integ = 0 ∧ (s.cfg.mode = 0 → t.pi.out = 0) ∧
      (s.cfg.mode = 1 → t.pi.out = s.cfg.base) ∧
      t.pi.err.toInt = sat32 (s.sequencer.cmd.toInt - d.toInt) ∧ t.pi.err.toInt ≤ 0

/-- R132. -/
def Obligations.PirstClearsTheIntegral : Prop :=
  (∀ w : CommandWord, w.extractLsb' 40 8 = 0x42#8 → decode w = .ok .pirst) ∧
  (∀ s : State, s.sequencer.seq = .idle →
    exec .pirst s = .next { s with
      pi := { s.pi with integ := 0 }
      outputs := Outputs.none }) ∧
  (∀ s : State, s.sequencer.seq ≠ .idle →
    exec .pirst s = .next { s with outputs := Outputs.none })

/-- R134: `duty` is the integer part of `OUT` clamped to 0..255 while RUNNING and 0 otherwise; `dir_sel` is `REV`,
which is 1 exactly when the value commanded was negative. -/
def Obligations.ActuationOutputsFollowTheState : Prop :=
  (∀ s : State, s.sequencer.seq = .running →
    ((duty s).toNat : Int) = max 0 (min (s.pi.out.toInt / 65536) 255)) ∧
  (∀ s : State, s.sequencer.seq = .running → 0 ≤ s.pi.out.toInt → s.pi.out.toInt < 256 * 65536 →
    duty s = s.pi.out.extractLsb' 16 8) ∧
  (∀ s : State, s.sequencer.seq ≠ .running → duty s = 0) ∧
  (∀ s : State, dirSel s = s.sequencer.rev) ∧
  (∀ (s t : State) (d : Word), s.sequencer.seq = .idle → exec (.setcmd d) s = .next t →
    (dirSel t = 1 ↔ d.toInt < 0))

/-! ## Trial Sequencer -/

/-- R14: elapsed milliseconds modulo 2^32; R177: the form of every period test, `since(stamp) >= period`. -/
def Obligations.SinceWrapsTheClock : Prop :=
  ∀ (x : Inputs) (t period : BitVec 32),
    ((since x t).toNat : Int) = ((x.now.toNat : Int) - t.toNat) % 2 ^ 32 ∧
    (due x t period = true ↔ (period.toNat : Int) ≤ ((x.now.toNat : Int) - t.toNat) % 2 ^ 32)

/-- R140: magnitude, saturated, and the reverse flag. -/
def Obligations.SetcmdLoadsMagnitudeAndFlag : Prop :=
  (∀ w : CommandWord, w.extractLsb' 40 8 = 0x03#8 → decode w = .ok (.setcmd (w.extractLsb' 0 32))) ∧
  (∀ (s : State) (d : Word), s.sequencer.seq = .idle → ∃ m : Fx,
    exec (.setcmd d) s = .next { s with
      sequencer := { s.sequencer with cmd := m, rev := if d.toInt < 0 then 1 else 0 }
      outputs := Outputs.none } ∧
    m.toInt = min |d.toInt| (2 ^ 31 - 1)) ∧
  (∀ (s : State) (d : Word), s.sequencer.seq ≠ .idle →
    exec (.setcmd d) s = .next { s with outputs := Outputs.none })

/-- R141 with the trial entry of R144: START writes `REP = 1` and enters the first trial on this step's sample, or
DONE when the repeat budget is 0; outside IDLE it is ignored. -/
def Obligations.StartEntersTheFirstTrial : Prop :=
  (∀ w : CommandWord, w.extractLsb' 40 8 = 0x02#8 → decode w = .ok .start) ∧
  (∀ s : State, s.sequencer.seq = .idle → s.cfg.maxreps.toNat = 0 →
    exec .start s = .next { s with
      sequencer := { s.sequencer with seq := .done, rep := 1 }
      outputs := Outputs.none }) ∧
  (∀ s : State, s.sequencer.seq = .idle → s.cfg.maxreps.toNat ≠ 0 → ∃ (p : BitVec 5) (v : Fx),
    p ^^^ (p >>> 1) = s.inp.g ∧ v.toInt = divsat (s.cfg.k.toInt * s.cfg.kref.toInt) s.sequencer.cmd.toInt ∧
    exec .start s = .next { s with
      tracker := { ref := p, prevang := 0 }
      counter := { cnt := 0, tog := 0, chl := 0, cntlast := 0, spd := 0 }
      direction := { dir := 0, tally := s.cfg.tally0, pch2 := s.inp.ch2 }
      pi := { err := 0, integ := 0, out := 0, kp := v }
      sequencer := { seq := .running, rep := 1, tstart := s.inp.now, elapsed := 0, tlastpi := s.inp.now,
                     tlastdir := s.inp.now, tlastspd := s.inp.now, rev := s.sequencer.rev, cmd := s.sequencer.cmd }
      outputs := Outputs.none }) ∧
  (∀ s : State, s.sequencer.seq ≠ .idle →
    exec .start s = .next { s with outputs := Outputs.none })

/-- R148: TICK in IDLE or DONE changes no register, gives no response and raises no strobe; `duty` is 0 there. -/
def Obligations.TickOutsideATrialDoesNothing : Prop :=
  ∀ s : State, s.sequencer.seq = .idle ∨ s.sequencer.seq = .done → duty s = 0 ∧
    exec .tick s = .next { s with outputs := Outputs.none }

/-- R143 with R133: TICK in RUNNING, the eight sub-steps in order, as one next state. Each later sub-step is given in
terms of what the earlier ones wrote: the speed from the new count, the direction from the new tally, the PI step from
the new speed and count, the exit test from the new elapsed time. -/
def Obligations.TickRunsOneControlPass : Prop :=
  ∀ s : State, s.sequencer.seq = .running →
    let dv : Int := ringDegrees s.inp.g s.tracker.ref
    let speedDue : Bool :=
      decide (s.cfg.mode = 1 ∧ s.cfg.tspd.toNat ≤ (s.inp.now - s.sequencer.tlastspd).toNat)
    let dirDue : Bool :=
      decide (s.direction.dir = 0 ∧ s.cfg.tdir.toNat ≤ (s.inp.now - s.sequencer.tlastdir).toNat)
    let piDue : Bool := decide (s.cfg.tctrl.toNat ≤ (s.inp.now - s.sequencer.tlastpi).toNat)
    let counted : Counter := doPtick s.inp s.counter
    let counter : Counter := if speedDue then doSpdupd s.cfg counted else counted
    let voted : Direction := doDhsmp s.inp s.direction
    let m : Int := if s.cfg.mode = 1 then counter.spd.toInt
      else if s.cfg.msrc = 0 then (if s.sequencer.rev = 1 then -dv else dv) else cntDeg s.cfg counter
    exec .tick s = .next { s with
      tracker := if dirDue ∧ s.cfg.dstrat = 0 then { s.tracker with prevang := BitVec.ofInt 32 dv } else s.tracker
      counter := counter
      direction := if dirDue then
          (if s.cfg.dstrat = 0 then
            { voted with dir := classify (normDelta (dv - s.tracker.prevang.toInt)) s.cfg.thresh.toInt }
           else doDhcls s.cfg voted)
        else voted
      pi := if piDue then doPistep s.cfg s.sequencer.cmd.toInt m s.pi else s.pi
      sequencer := { s.sequencer with
        seq := if s.cfg.ttrial.toNat ≤ (s.inp.now - s.sequencer.tstart).toNat ∨
                  s.cfg.maxreps.toNat < s.sequencer.rep.toNat then .reporting else .running
        elapsed := s.inp.now - s.sequencer.tstart
        tlastspd := if speedDue then s.inp.now else s.sequencer.tlastspd
        tlastdir := if dirDue then s.inp.now else s.sequencer.tlastdir
        tlastpi := if piDue then s.inp.now else s.sequencer.tlastpi }
      outputs := { resp := none, rptStb := false, spdStb := speedDue } }

/-- R147 with R144 and R145: TICK in REPORTING makes the report, raises `rpt_stb`, counts the rep index up, resets the
per-trial state and enters the next trial on the same sample, or DONE. `REP` and `RPTN` never reach 2^32 − 1 (R31,
R32), so the two premises on them exclude no reachable state. -/
def Obligations.TickReportsAndGoesOn : Prop :=
  ∀ s : State, s.sequencer.seq = .reporting → s.report.rptn.toNat + 1 < 2 ^ 32 → s.sequencer.rep.toNat + 1 < 2 ^ 32 →
    ∃ (r : Report) (v : Fx),
      r.rptAbs.toInt = ringDegrees s.inp.g s.tracker.ref ∧ r.rptInc.toInt = cntDeg s.cfg s.counter ∧
      r.rptDiff.toInt = sat32 (r.rptAbs.toInt - r.rptInc.toInt) ∧ r.rptDir = s.direction.dir ∧
      r.rptSpd = s.counter.spd ∧ r.rptRep = s.sequencer.rep ∧ r.rptn.toNat = s.report.rptn.toNat + 1 ∧
      v.toInt = divsat (s.cfg.k.toInt * s.cfg.kref.toInt) s.sequencer.cmd.toInt ∧
      (s.sequencer.rep.toNat + 1 > s.cfg.maxreps.toNat →
        exec .tick s = .next { s with
          report := r
          counter := { cnt := 0, tog := 0, chl := 0, cntlast := 0, spd := 0 }
          direction := { dir := 0, tally := s.cfg.tally0, pch2 := s.inp.ch2 }
          pi := { s.pi with err := 0, integ := 0, out := 0 }
          sequencer := { s.sequencer with seq := .done, rep := s.sequencer.rep + 1 }
          outputs := { resp := none, rptStb := true, spdStb := false } }) ∧
      (s.sequencer.rep.toNat + 1 ≤ s.cfg.maxreps.toNat →
        exec .tick s = .next { s with
          report := r
          tracker := { ref := pinPosition s.inp.g, prevang := 0 }
          counter := { cnt := 0, tog := 0, chl := 0, cntlast := 0, spd := 0 }
          direction := { dir := 0, tally := s.cfg.tally0, pch2 := s.inp.ch2 }
          pi := { err := 0, integ := 0, out := 0, kp := v }
          sequencer := { seq := .running, rep := s.sequencer.rep + 1, tstart := s.inp.now, elapsed := 0,
                         tlastpi := s.inp.now, tlastdir := s.inp.now, tlastspd := s.inp.now,
                         rev := s.sequencer.rev, cmd := s.sequencer.cmd }
          outputs := { resp := none, rptStb := true, spdStb := false } })

/-- Every transition of `SEQ` (the table of R149) and nothing else, for every operation in every state; reset goes to
IDLE. -/
def Obligations.SequencerTransitions : Prop :=
  (∀ (i : Instr) (s t : State), exec i s = .next t → t.sequencer.seq =
    match s.sequencer.seq, i with
    | .idle, .start => if s.cfg.maxreps.toNat = 0 then .done else .running
    | .running, .tick =>
      if (s.inp.now - s.sequencer.tstart).toNat < s.cfg.ttrial.toNat ∧ s.sequencer.rep.toNat ≤ s.cfg.maxreps.toNat
      then .running else .reporting
    | .reporting, .tick => if s.sequencer.rep.toNat + 1 ≤ s.cfg.maxreps.toNat then .running else .done
    | q, _ => q) ∧
  (∀ (s t : State) (a : Arrival) (rest : List Arrival), s.port = a :: rest → a.inp.rst = true → step s = .next t →
    t.sequencer.seq = .idle)

/-- R150, R200: whatever words arrive, without a TICK or a reset a session in RUNNING, REPORTING or DONE stays as it
is, and `duty` is held. -/
def Obligations.WithoutTicksASessionStands : Prop :=
  ∀ (n : Nat) (s t : State), s.sequencer.seq ≠ .idle → (∀ a ∈ s.port.take n, NoTick a) →
    Sys2Proof.core.run n s = .next t → SameRegisters t s ∧ duty t = duty s

/-! ## The reachable states -/

/-- The invariant of R56 holds after reset. -/
def Obligations.ResetMeetsTheInvariant : Prop := CoreInv State.reset

/-- The invariant of R56 is kept by every step, whatever word, sample or reset arrives: the displacement registers
hold one of the 33 ring values, `DIR` is 0, 1 or 2, `CMD` is not negative, and the rep index fits the sequencer's
state. -/
def Obligations.EveryStepKeepsTheInvariant : Prop :=
  ∀ s t : State, CoreInv s → step s = .next t → CoreInv t

/-- R56 (f), (g) over runs: after any number of steps from the reset registers, on any words and samples, outside a
trial the motor is off, in a trial 1 ≤ REP ≤ MAXREPS, and in DONE REP = MAXREPS + 1. -/
def Obligations.EveryRunRespectsTheRepBudget : Prop :=
  ∀ (n : Nat) (arrivals : List Arrival) (t : State),
    Sys2Proof.core.run n { State.reset with port := arrivals } = .next t →
    (t.sequencer.seq ≠ .running → duty t = 0) ∧
    (t.sequencer.seq = .running → 1 ≤ t.sequencer.rep.toNat ∧ t.sequencer.rep.toNat ≤ t.cfg.maxreps.toNat) ∧
    (t.sequencer.seq = .done → t.sequencer.rep.toNat = t.cfg.maxreps.toNat + 1) ∧
    t.report.rptn.toNat ≤ t.cfg.maxreps.toNat
end

