-- ==== Sys2Proof/Laws/Encode.lean ====
section
/-! SUPPORT. The three fields of a command word put together and taken apart again (30_encoding.md rule R80). -/

namespace Sys2Proof

theorem append_opField (o a : BitVec 8) (d : BitVec 32) : (o ++ a ++ d : BitVec 48).extractLsb' 40 8 = o := by
  apply BitVec.eq_of_getLsbD_eq
  intro i hi
  have h : 40 + i - 32 - 8 = i := by omega
  rw [BitVec.getLsbD_extractLsb']
  erw [BitVec.getLsbD_append, BitVec.getLsbD_append]
  rw [if_neg (by omega), if_neg (by omega), h]
  simp [hi]

theorem append_aField (o a : BitVec 8) (d : BitVec 32) : (o ++ a ++ d : BitVec 48).extractLsb' 32 8 = a := by
  apply BitVec.eq_of_getLsbD_eq
  intro i hi
  rw [BitVec.getLsbD_extractLsb']
  erw [BitVec.getLsbD_append, BitVec.getLsbD_append]
  rw [if_neg (by omega), if_pos (by omega)]
  simp [hi]

theorem append_dField (o a : BitVec 8) (d : BitVec 32) : (o ++ a ++ d : BitVec 48).extractLsb' 0 32 = d := by
  apply BitVec.eq_of_getLsbD_eq
  intro i hi
  rw [BitVec.getLsbD_extractLsb']
  erw [BitVec.getLsbD_append]
  rw [if_pos (by omega)]
  simp [hi]

@[simp] theorem opField_encode (i : Instr) : opField (encode i) = i.opcode := append_opField _ _ _

@[simp] theorem aField_encode (i : Instr) : aField (encode i) = i.aOperand := append_aField _ _ _

@[simp] theorem dField_encode (i : Instr) : dField (encode i) = i.dOperand := append_dField _ _ _

/-- The opcode of a decoded word is in its `op` field. -/
theorem opcode_of_decode {w : CommandWord} {i : Instr} (h : decode w = .ok i) : i.opcode = opField w := by
  unfold decode at h
  have key : ∀ n : Nat, n < 256 → (opField w).toNat = n → opField w = BitVec.ofNat 8 n := by
    intro n hn hw
    apply BitVec.eq_of_toNat_eq
    rw [hw, BitVec.toNat_ofNat]
    omega
  split at h <;> first | (cases h; rename_i hw; exact (key _ (by omega) hw).symm) | cases h

end Sys2Proof
end

