-- ==== Sys2Proof/Laws/State.lean ====
section
/-! SUPPORT. One lemma per field per update of State: no later proof unfolds a record update. -/

namespace Sys2Proof.Machine

section
variable (s : State) (x : Tracker)
@[simp] theorem State.withTracker_tracker : (s.withTracker x).tracker = x := rfl
@[simp] theorem State.withTracker_counter : (s.withTracker x).counter = s.counter := rfl
@[simp] theorem State.withTracker_direction : (s.withTracker x).direction = s.direction := rfl
@[simp] theorem State.withTracker_pi : (s.withTracker x).pi = s.pi := rfl
@[simp] theorem State.withTracker_sequencer : (s.withTracker x).sequencer = s.sequencer := rfl
@[simp] theorem State.withTracker_report : (s.withTracker x).report = s.report := rfl
@[simp] theorem State.withTracker_cfg : (s.withTracker x).cfg = s.cfg := rfl
@[simp] theorem State.withTracker_inp : (s.withTracker x).inp = s.inp := rfl
@[simp] theorem State.withTracker_outputs : (s.withTracker x).outputs = s.outputs := rfl
@[simp] theorem State.withTracker_port : (s.withTracker x).port = s.port := rfl
end

section
variable (s : State) (x : Counter)
@[simp] theorem State.withCounter_tracker : (s.withCounter x).tracker = s.tracker := rfl
@[simp] theorem State.withCounter_counter : (s.withCounter x).counter = x := rfl
@[simp] theorem State.withCounter_direction : (s.withCounter x).direction = s.direction := rfl
@[simp] theorem State.withCounter_pi : (s.withCounter x).pi = s.pi := rfl
@[simp] theorem State.withCounter_sequencer : (s.withCounter x).sequencer = s.sequencer := rfl
@[simp] theorem State.withCounter_report : (s.withCounter x).report = s.report := rfl
@[simp] theorem State.withCounter_cfg : (s.withCounter x).cfg = s.cfg := rfl
@[simp] theorem State.withCounter_inp : (s.withCounter x).inp = s.inp := rfl
@[simp] theorem State.withCounter_outputs : (s.withCounter x).outputs = s.outputs := rfl
@[simp] theorem State.withCounter_port : (s.withCounter x).port = s.port := rfl
end

section
variable (s : State) (x : Direction)
@[simp] theorem State.withDirection_tracker : (s.withDirection x).tracker = s.tracker := rfl
@[simp] theorem State.withDirection_counter : (s.withDirection x).counter = s.counter := rfl
@[simp] theorem State.withDirection_direction : (s.withDirection x).direction = x := rfl
@[simp] theorem State.withDirection_pi : (s.withDirection x).pi = s.pi := rfl
@[simp] theorem State.withDirection_sequencer : (s.withDirection x).sequencer = s.sequencer := rfl
@[simp] theorem State.withDirection_report : (s.withDirection x).report = s.report := rfl
@[simp] theorem State.withDirection_cfg : (s.withDirection x).cfg = s.cfg := rfl
@[simp] theorem State.withDirection_inp : (s.withDirection x).inp = s.inp := rfl
@[simp] theorem State.withDirection_outputs : (s.withDirection x).outputs = s.outputs := rfl
@[simp] theorem State.withDirection_port : (s.withDirection x).port = s.port := rfl
end

section
variable (s : State) (x : Controller)
@[simp] theorem State.withPi_tracker : (s.withPi x).tracker = s.tracker := rfl
@[simp] theorem State.withPi_counter : (s.withPi x).counter = s.counter := rfl
@[simp] theorem State.withPi_direction : (s.withPi x).direction = s.direction := rfl
@[simp] theorem State.withPi_pi : (s.withPi x).pi = x := rfl
@[simp] theorem State.withPi_sequencer : (s.withPi x).sequencer = s.sequencer := rfl
@[simp] theorem State.withPi_report : (s.withPi x).report = s.report := rfl
@[simp] theorem State.withPi_cfg : (s.withPi x).cfg = s.cfg := rfl
@[simp] theorem State.withPi_inp : (s.withPi x).inp = s.inp := rfl
@[simp] theorem State.withPi_outputs : (s.withPi x).outputs = s.outputs := rfl
@[simp] theorem State.withPi_port : (s.withPi x).port = s.port := rfl
end

section
variable (s : State) (x : Sequencer)
@[simp] theorem State.withSequencer_tracker : (s.withSequencer x).tracker = s.tracker := rfl
@[simp] theorem State.withSequencer_counter : (s.withSequencer x).counter = s.counter := rfl
@[simp] theorem State.withSequencer_direction : (s.withSequencer x).direction = s.direction := rfl
@[simp] theorem State.withSequencer_pi : (s.withSequencer x).pi = s.pi := rfl
@[simp] theorem State.withSequencer_sequencer : (s.withSequencer x).sequencer = x := rfl
@[simp] theorem State.withSequencer_report : (s.withSequencer x).report = s.report := rfl
@[simp] theorem State.withSequencer_cfg : (s.withSequencer x).cfg = s.cfg := rfl
@[simp] theorem State.withSequencer_inp : (s.withSequencer x).inp = s.inp := rfl
@[simp] theorem State.withSequencer_outputs : (s.withSequencer x).outputs = s.outputs := rfl
@[simp] theorem State.withSequencer_port : (s.withSequencer x).port = s.port := rfl
end

section
variable (s : State) (x : Report)
@[simp] theorem State.withReport_tracker : (s.withReport x).tracker = s.tracker := rfl
@[simp] theorem State.withReport_counter : (s.withReport x).counter = s.counter := rfl
@[simp] theorem State.withReport_direction : (s.withReport x).direction = s.direction := rfl
@[simp] theorem State.withReport_pi : (s.withReport x).pi = s.pi := rfl
@[simp] theorem State.withReport_sequencer : (s.withReport x).sequencer = s.sequencer := rfl
@[simp] theorem State.withReport_report : (s.withReport x).report = x := rfl
@[simp] theorem State.withReport_cfg : (s.withReport x).cfg = s.cfg := rfl
@[simp] theorem State.withReport_inp : (s.withReport x).inp = s.inp := rfl
@[simp] theorem State.withReport_outputs : (s.withReport x).outputs = s.outputs := rfl
@[simp] theorem State.withReport_port : (s.withReport x).port = s.port := rfl
end

section
variable (s : State) (x : Tunables)
@[simp] theorem State.withCfg_tracker : (s.withCfg x).tracker = s.tracker := rfl
@[simp] theorem State.withCfg_counter : (s.withCfg x).counter = s.counter := rfl
@[simp] theorem State.withCfg_direction : (s.withCfg x).direction = s.direction := rfl
@[simp] theorem State.withCfg_pi : (s.withCfg x).pi = s.pi := rfl
@[simp] theorem State.withCfg_sequencer : (s.withCfg x).sequencer = s.sequencer := rfl
@[simp] theorem State.withCfg_report : (s.withCfg x).report = s.report := rfl
@[simp] theorem State.withCfg_cfg : (s.withCfg x).cfg = x := rfl
@[simp] theorem State.withCfg_inp : (s.withCfg x).inp = s.inp := rfl
@[simp] theorem State.withCfg_outputs : (s.withCfg x).outputs = s.outputs := rfl
@[simp] theorem State.withCfg_port : (s.withCfg x).port = s.port := rfl
end

section
variable (s : State) (x : Inputs)
@[simp] theorem State.withInp_tracker : (s.withInp x).tracker = s.tracker := rfl
@[simp] theorem State.withInp_counter : (s.withInp x).counter = s.counter := rfl
@[simp] theorem State.withInp_direction : (s.withInp x).direction = s.direction := rfl
@[simp] theorem State.withInp_pi : (s.withInp x).pi = s.pi := rfl
@[simp] theorem State.withInp_sequencer : (s.withInp x).sequencer = s.sequencer := rfl
@[simp] theorem State.withInp_report : (s.withInp x).report = s.report := rfl
@[simp] theorem State.withInp_cfg : (s.withInp x).cfg = s.cfg := rfl
@[simp] theorem State.withInp_inp : (s.withInp x).inp = x := rfl
@[simp] theorem State.withInp_outputs : (s.withInp x).outputs = s.outputs := rfl
@[simp] theorem State.withInp_port : (s.withInp x).port = s.port := rfl
end

section
variable (s : State) (x : Outputs)
@[simp] theorem State.withOutputs_tracker : (s.withOutputs x).tracker = s.tracker := rfl
@[simp] theorem State.withOutputs_counter : (s.withOutputs x).counter = s.counter := rfl
@[simp] theorem State.withOutputs_direction : (s.withOutputs x).direction = s.direction := rfl
@[simp] theorem State.withOutputs_pi : (s.withOutputs x).pi = s.pi := rfl
@[simp] theorem State.withOutputs_sequencer : (s.withOutputs x).sequencer = s.sequencer := rfl
@[simp] theorem State.withOutputs_report : (s.withOutputs x).report = s.report := rfl
@[simp] theorem State.withOutputs_cfg : (s.withOutputs x).cfg = s.cfg := rfl
@[simp] theorem State.withOutputs_inp : (s.withOutputs x).inp = s.inp := rfl
@[simp] theorem State.withOutputs_outputs : (s.withOutputs x).outputs = x := rfl
@[simp] theorem State.withOutputs_port : (s.withOutputs x).port = s.port := rfl
end

section
variable (s : State) (x : List Arrival)
@[simp] theorem State.withPort_tracker : (s.withPort x).tracker = s.tracker := rfl
@[simp] theorem State.withPort_counter : (s.withPort x).counter = s.counter := rfl
@[simp] theorem State.withPort_direction : (s.withPort x).direction = s.direction := rfl
@[simp] theorem State.withPort_pi : (s.withPort x).pi = s.pi := rfl
@[simp] theorem State.withPort_sequencer : (s.withPort x).sequencer = s.sequencer := rfl
@[simp] theorem State.withPort_report : (s.withPort x).report = s.report := rfl
@[simp] theorem State.withPort_cfg : (s.withPort x).cfg = s.cfg := rfl
@[simp] theorem State.withPort_inp : (s.withPort x).inp = s.inp := rfl
@[simp] theorem State.withPort_outputs : (s.withPort x).outputs = s.outputs := rfl
@[simp] theorem State.withPort_port : (s.withPort x).port = x := rfl
end

section
variable (s : State)
@[simp] theorem State.quiet_tracker : s.quiet.tracker = s.tracker := rfl
@[simp] theorem State.quiet_counter : s.quiet.counter = s.counter := rfl
@[simp] theorem State.quiet_direction : s.quiet.direction = s.direction := rfl
@[simp] theorem State.quiet_pi : s.quiet.pi = s.pi := rfl
@[simp] theorem State.quiet_sequencer : s.quiet.sequencer = s.sequencer := rfl
@[simp] theorem State.quiet_report : s.quiet.report = s.report := rfl
@[simp] theorem State.quiet_cfg : s.quiet.cfg = s.cfg := rfl
@[simp] theorem State.quiet_inp : s.quiet.inp = s.inp := rfl
@[simp] theorem State.quiet_outputs : s.quiet.outputs = Outputs.none := rfl
@[simp] theorem State.quiet_port : s.quiet.port = s.port := rfl
end

section
variable (s : State) (v : Word)
@[simp] theorem State.respond_tracker : (s.respond v).tracker = s.tracker := rfl
@[simp] theorem State.respond_counter : (s.respond v).counter = s.counter := rfl
@[simp] theorem State.respond_direction : (s.respond v).direction = s.direction := rfl
@[simp] theorem State.respond_pi : (s.respond v).pi = s.pi := rfl
@[simp] theorem State.respond_sequencer : (s.respond v).sequencer = s.sequencer := rfl
@[simp] theorem State.respond_report : (s.respond v).report = s.report := rfl
@[simp] theorem State.respond_cfg : (s.respond v).cfg = s.cfg := rfl
@[simp] theorem State.respond_inp : (s.respond v).inp = s.inp := rfl
@[simp] theorem State.respond_outputs : (s.respond v).outputs = { resp := some v, rptStb := false, spdStb := false } := rfl
@[simp] theorem State.respond_port : (s.respond v).port = s.port := rfl
end

section
variable (s : State)
@[simp] theorem State.raiseSpd_tracker : s.raiseSpd.tracker = s.tracker := rfl
@[simp] theorem State.raiseSpd_counter : s.raiseSpd.counter = s.counter := rfl
@[simp] theorem State.raiseSpd_direction : s.raiseSpd.direction = s.direction := rfl
@[simp] theorem State.raiseSpd_pi : s.raiseSpd.pi = s.pi := rfl
@[simp] theorem State.raiseSpd_sequencer : s.raiseSpd.sequencer = s.sequencer := rfl
@[simp] theorem State.raiseSpd_report : s.raiseSpd.report = s.report := rfl
@[simp] theorem State.raiseSpd_cfg : s.raiseSpd.cfg = s.cfg := rfl
@[simp] theorem State.raiseSpd_inp : s.raiseSpd.inp = s.inp := rfl
@[simp] theorem State.raiseSpd_outputs : s.raiseSpd.outputs = { s.outputs with spdStb := true } := rfl
@[simp] theorem State.raiseSpd_port : s.raiseSpd.port = s.port := rfl
end

section
variable (s : State)
@[simp] theorem State.raiseRpt_tracker : s.raiseRpt.tracker = s.tracker := rfl
@[simp] theorem State.raiseRpt_counter : s.raiseRpt.counter = s.counter := rfl
@[simp] theorem State.raiseRpt_direction : s.raiseRpt.direction = s.direction := rfl
@[simp] theorem State.raiseRpt_pi : s.raiseRpt.pi = s.pi := rfl
@[simp] theorem State.raiseRpt_sequencer : s.raiseRpt.sequencer = s.sequencer := rfl
@[simp] theorem State.raiseRpt_report : s.raiseRpt.report = s.report := rfl
@[simp] theorem State.raiseRpt_cfg : s.raiseRpt.cfg = s.cfg := rfl
@[simp] theorem State.raiseRpt_inp : s.raiseRpt.inp = s.inp := rfl
@[simp] theorem State.raiseRpt_outputs : s.raiseRpt.outputs = { s.outputs with rptStb := true } := rfl
@[simp] theorem State.raiseRpt_port : s.raiseRpt.port = s.port := rfl
end

end Sys2Proof.Machine
end

