-- ==== Sys2Proof/Laws/Ops.lean ====
section
/-! SUPPORT. One lemma per shared operation, saying what it can do: acceptance, the narrowing primitives, the Gray
functions, the displacement, the port. -/

namespace Sys2Proof.Machine

/-! ### Acceptance (R86) -/

theorem whenIdle_of_idle {s : State} (f : State → State) (h : s.sequencer.seq = .idle) :
    whenIdle s f = .next (f s.quiet) := by
  simp only [whenIdle, h]

theorem whenIdle_of_busy {s : State} (f : State → State) (h : s.sequencer.seq ≠ .idle) :
    whenIdle s f = .next s.quiet := by
  unfold whenIdle
  cases hs : s.sequencer.seq <;> simp_all

/-- An operation gated on IDLE always answers next: with its effect in IDLE, quietly elsewhere. -/
theorem whenIdle_next_iff {s t : State} {f : State → State} :
    whenIdle s f = .next t ↔
      (s.sequencer.seq = .idle ∧ t = f s.quiet) ∨ (s.sequencer.seq ≠ .idle ∧ t = s.quiet) := by
  by_cases h : s.sequencer.seq = .idle
  · simp [whenIdle_of_idle f h, h, eq_comm]
  · simp [whenIdle_of_busy f h, h, eq_comm]

/-! ### Narrowing (R10, R11) -/

theorem toFx_toInt {x : Int} (lo : -2147483648 ≤ x) (hi : x ≤ 2147483647) : (toFx x).toInt = x := by
  simp only [toFx, BitVec.toInt_ofInt, Int.bmod]
  split <;> omega

theorem toFx48_toInt {x : Int} (lo : -140737488355328 ≤ x) (hi : x ≤ 140737488355327) : (toFx48 x).toInt = x := by
  simp only [toFx48, BitVec.toInt_ofInt, Int.bmod]
  split <;> omega

/-- An `fx` register holds a value in s32 range. -/
theorem fx_range (x : Fx) : -2147483648 ≤ x.toInt ∧ x.toInt ≤ 2147483647 := by
  have h1 := BitVec.le_toInt x
  have h2 := BitVec.toInt_lt (x := x)
  norm_num at h1 h2
  omega

theorem sat32_range (x : Int) : -2147483648 ≤ sat32 x ∧ sat32 x ≤ 2147483647 := by
  unfold sat32; omega

theorem sat48_range (x : Int) : -140737488355328 ≤ sat48 x ∧ sat48 x ≤ 140737488355327 := by
  unfold sat48; omega

theorem sat32_of_range {x : Int} (lo : -2147483648 ≤ x) (hi : x ≤ 2147483647) : sat32 x = x := by
  unfold sat32; omega

theorem divsat_range (n d : Int) : -2147483648 ≤ divsat n d ∧ divsat n d ≤ 2147483647 := by
  unfold divsat
  split
  · split
    · omega
    · split <;> omega
  · exact sat32_range _

theorem divsat_nonneg {n d : Int} (hn : 0 ≤ n) (hd : 0 ≤ d) : 0 ≤ divsat n d := by
  unfold divsat
  split
  · split
    · omega
    · split <;> omega
  · have h : 0 ≤ tdiv n d := Int.tdiv_nonneg hn hd
    unfold sat32; omega

theorem clamp_range {x lo hi : Int} {a b : Int} (h1 : a ≤ lo) (h2 : lo ≤ b) (h3 : hi ≤ b) :
    a ≤ clamp x lo hi ∧ clamp x lo hi ≤ b := by
  unfold clamp; omega

@[simp] theorem toFx_sat32_toInt (x : Int) : (toFx (sat32 x)).toInt = sat32 x :=
  toFx_toInt (sat32_range x).1 (sat32_range x).2

@[simp] theorem toFx48_sat48_toInt (x : Int) : (toFx48 (sat48 x)).toInt = sat48 x :=
  toFx48_toInt (sat48_range x).1 (sat48_range x).2

@[simp] theorem toFx_divsat_toInt (n d : Int) : (toFx (divsat n d)).toInt = divsat n d :=
  toFx_toInt (divsat_range n d).1 (divsat_range n d).2

theorem incSat32_toNat (x : BitVec 32) : (incSat32 x).toNat = min (x.toNat + 1) 4294967295 := by
  have := x.isLt
  simp only [incSat32, BitVec.toNat_ofNat]
  omega

/-! ### The Gray functions and the ring (R12, R102) -/

theorem gray2bin_eq_pinPosition : ∀ g : BitVec 5, gray2bin g = pinPosition g := by decide

theorem pinPosition_on_pins : ∀ g : BitVec 5, pinPosition g ^^^ (pinPosition g >>> 1) = g := by decide

theorem ringSteps_range (p r : BitVec 5) : -16 ≤ ringSteps p r ∧ ringSteps p r ≤ 16 := by
  have := p.isLt
  have := r.isLt
  unfold ringSteps
  split
  · omega
  · split <;> omega

theorem disp_eq_ringDegrees (g r : BitVec 5) : disp g r = ringDegrees g r := by
  rw [disp, ringDegrees, gray2bin_eq_pinPosition, mul_comm]
  rfl

theorem ringDegrees_range (g r : BitVec 5) : -11796480 ≤ ringDegrees g r ∧ ringDegrees g r ≤ 11796480 := by
  have := ringSteps_range (pinPosition g) r
  unfold ringDegrees; omega

@[simp] theorem toFx_disp_toInt (g r : BitVec 5) : (toFx (disp g r)).toInt = ringDegrees g r := by
  have := ringDegrees_range g r
  rw [disp_eq_ringDegrees]
  exact toFx_toInt (by omega) (by omega)

/-- A displacement register write is on the ring (R56 (a)). -/
theorem toFx_disp_onRing (g r : BitVec 5) : OnRing (toFx (disp g r)) := by
  have := ringDegrees_range g r
  simp only [OnRing, toFx_disp_toInt]
  refine ⟨?_, this⟩
  simp [ringDegrees]

/-! ### The counter in degrees (R113) -/

theorem cntDeg_range (k : Tunables) (c : Counter) : -2147483648 ≤ cntDeg k c ∧ cntDeg k c ≤ 2147483647 :=
  divsat_range _ _

theorem cntDeg_nonneg (k : Tunables) (c : Counter) : 0 ≤ cntDeg k c :=
  divsat_nonneg (by simp only [Config.fxOne]; omega) (by omega)

@[simp] theorem toFx_cntDeg_toInt (k : Tunables) (c : Counter) : (toFx (cntDeg k c)).toInt = cntDeg k c :=
  toFx_toInt (cntDeg_range k c).1 (cntDeg_range k c).2

/-! ### The command port (R6) -/

theorem takeArrival_nil {s : State} (h : s.port = []) : takeArrival s = none := by
  simp [takeArrival, h]

theorem takeArrival_cons {s : State} {a : Arrival} {rest : List Arrival} (h : s.port = a :: rest) :
    takeArrival s = some (a, (s.withInp a.inp).withPort rest) := by
  simp [takeArrival, h]

/-! ### The register map (R50 to R52) -/

theorem regAt_number : ∀ r : Reg, regAt r.number = some r := by
  intro r
  cases r <;> rfl

/-- A number that names something is that name's number. -/
theorem number_of_regAt : ∀ (a : RegNumber) (r : Reg), regAt a = some r → r.number = a := by
  decide

@[simp] theorem readReg_number (s : State) (r : Reg) : readReg s r.number = readNamed s r := by
  simp [readReg, regAt_number]

@[simp] theorem writeReg_number (c : Tunables) (r : Reg) (d : Word) : writeReg c r.number d = writeNamed c r d := by
  simp [writeReg, regAt_number]

/-! ### Tests on the state, as propositions -/

theorem due_iff (x : Inputs) (t period : BitVec 32) : due x t period = true ↔ period.toNat ≤ (x.now - t).toNat :=
  decide_eq_true_iff

theorem latched_eq_false_iff (d : Direction) : latched d = false ↔ d.dir = 0 := by
  simp [latched]

theorem repsExhausted_iff (s : State) : repsExhausted s = true ↔ s.cfg.maxreps.toNat < s.sequencer.rep.toNat :=
  decide_eq_true_iff

/-! ### The values of the views (R50, R51) -/

theorem zext32_toNat {w : Nat} (v : BitVec w) (h : w ≤ 32) : (zext32 v).toNat = v.toNat := by
  simp only [zext32, BitVec.toNat_setWidth]
  exact Nat.mod_eq_of_lt (lt_of_lt_of_le v.isLt (Nat.pow_le_pow_right (by norm_num) h))

theorem seqCode_toNat (q : Seq) : (seqCode q).toNat = seqNumber q := by cases q <;> rfl

theorem pinsView_toNat (x : Inputs) :
    (pinsView x).toNat = 64 * x.ch2.toNat + 32 * x.ch1.toNat + x.g.toNat := by
  have h : ∀ (a b : BitVec 1) (c : BitVec 5), (a ++ b ++ c).toNat = 64 * a.toNat + 32 * b.toNat + c.toNat := by
    decide
  rw [pinsView, zext32_toNat _ (by norm_num)]
  exact h _ _ _

theorem integLow_toNat (v : Fx48) : (integLow v).toNat = v.toNat % 4294967296 := by
  rw [integLow, BitVec.extractLsb'_toNat]
  simp

theorem integHigh_toNat (v : Fx48) : (integHigh v).toNat = (v.toInt / 4294967296 % 4294967296).toNat := by
  unfold integHigh
  have h : ((v.extractLsb' 32 16).signExtend 32).toInt = v.toInt / 4294967296 := by
    have := v.isLt
    rw [BitVec.toInt_signExtend_of_le (by norm_num), BitVec.toInt_eq_toNat_bmod, BitVec.toInt_eq_toNat_bmod,
      BitVec.extractLsb'_toNat, Nat.shiftRight_eq_div_pow]
    simp only [Int.bmod]
    norm_num
    omega
  generalize (v.extractLsb' 32 16).signExtend 32 = u at *
  have := u.isLt
  rw [← h, BitVec.toInt_eq_toNat_bmod]
  simp only [Int.bmod]
  norm_num
  omega

end Sys2Proof.Machine
end

