-- ==== Sys2Proof/Laws/Exec.lean ====
section
/-! SUPPORT. What exec calls, one equation per operation, and the one shape all gated operations share: cite these
instead of unfolding exec. -/

namespace Sys2Proof.Machine

theorem exec_nop (s : State) : exec .nop s = .next s.quiet := rfl
theorem exec_rdreg (a : RegNumber) (s : State) : exec (.rdreg a) s = .next (s.respond (readReg s a)) := rfl
theorem exec_wrreg (a : RegNumber) (d : Word) (s : State) :
    exec (.wrreg a d) s = whenIdle s fun t => t.withCfg (writeReg t.cfg a d) := rfl
theorem exec_gdec (s : State) : exec .gdec s = whenIdle s fun t => t.respond (zext32 (gray2bin t.inp.g)) := rfl
theorem exec_cal (s : State) : exec .cal s = whenIdle s fun t => t.withTracker (doCal t.inp) := rfl
theorem exec_rdisp (s : State) :
    exec .rdisp s = whenIdle s fun t => t.respond (toFx (disp t.inp.g t.tracker.ref)) := rfl
theorem exec_ptick (s : State) : exec .ptick s = whenIdle s fun t => t.withCounter (doPtick t.inp t.counter) := rfl
theorem exec_prst (s : State) : exec .prst s = whenIdle s fun t => t.withCounter doPrst := rfl
theorem exec_spdupd (s : State) :
    exec .spdupd s = whenIdle s fun t => t.withCounter (doSpdupd t.cfg t.counter) := rfl
theorem exec_dthr (s : State) : exec .dthr s = whenIdle s fun t => doDthr (disp t.inp.g t.tracker.ref) t := rfl
theorem exec_dhsmp (s : State) :
    exec .dhsmp s = whenIdle s fun t => t.withDirection (doDhsmp t.inp t.direction) := rfl
theorem exec_dhcls (s : State) :
    exec .dhcls s = whenIdle s fun t => t.withDirection (doDhcls t.cfg t.direction) := rfl
theorem exec_drst (s : State) : exec .drst s = whenIdle s fun t => t.withDirection (doDrst t.inp t.cfg) := rfl
theorem exec_pigain (s : State) :
    exec .pigain s = whenIdle s fun t => t.withPi (doPigain t.cfg t.sequencer.cmd t.pi) := rfl
theorem exec_pistep (d : Word) (s : State) :
    exec (.pistep d) s =
      whenIdle s fun t => t.withPi (doPistep t.cfg t.sequencer.cmd.toInt (asS32 d) t.pi) := rfl
theorem exec_pirst (s : State) : exec .pirst s = whenIdle s fun t => t.withPi (doPirst t.pi) := rfl
theorem exec_setcmd (d : Word) (s : State) :
    exec (.setcmd d) s = whenIdle s fun t => t.withSequencer (doSetcmd (asS32 d) t.sequencer) := rfl
theorem exec_start (s : State) :
    exec .start s = whenIdle s fun t => doneOrEnter (t.withSequencer { t.sequencer with rep := 1 }) := rfl

theorem exec_tick_running {s : State} (h : s.sequencer.seq = .running) :
    exec .tick s = .next (tickRunning s.quiet) := by
  simp only [exec, execTick, h]

theorem exec_tick_reporting {s : State} (h : s.sequencer.seq = .reporting) :
    exec .tick s = .next (tickReporting s.quiet) := by
  simp only [exec, execTick, h]

theorem exec_tick_rest {s : State} (h1 : s.sequencer.seq ≠ .running) (h2 : s.sequencer.seq ≠ .reporting) :
    exec .tick s = .next s.quiet := by
  simp only [exec, execTick]
  split <;> simp_all

/-- Every operation not accepted in all states is one effect gated on IDLE (R86). -/
theorem exec_gated (i : Instr) (h : acceptedAlways i = false) : ∃ f, ∀ s, exec i s = whenIdle s f := by
  cases i
  case nop | tick | rdreg => cases h
  case start => exact ⟨_, exec_start⟩
  case setcmd d => exact ⟨_, exec_setcmd d⟩
  case wrreg a d => exact ⟨_, exec_wrreg a d⟩
  case gdec => exact ⟨_, exec_gdec⟩
  case cal => exact ⟨_, exec_cal⟩
  case rdisp => exact ⟨_, exec_rdisp⟩
  case ptick => exact ⟨_, exec_ptick⟩
  case prst => exact ⟨_, exec_prst⟩
  case spdupd => exact ⟨_, exec_spdupd⟩
  case dthr => exact ⟨_, exec_dthr⟩
  case dhsmp => exact ⟨_, exec_dhsmp⟩
  case dhcls => exact ⟨_, exec_dhcls⟩
  case drst => exact ⟨_, exec_drst⟩
  case pigain => exact ⟨_, exec_pigain⟩
  case pistep d => exact ⟨_, exec_pistep d⟩
  case pirst => exact ⟨_, exec_pirst⟩

/-- A step with a word on the port: the sample is taken first, reset overrides, a reserved word does nothing. -/
theorem step_cons {s : State} {a : Arrival} {rest : List Arrival} (h : s.port = a :: rest) :
    step s =
      if a.inp.rst then .next (resetCore ((s.withInp a.inp).withPort rest))
      else match decode a.word with
        | .ok i => exec i ((s.withInp a.inp).withPort rest)
        | .error _ => .next ((s.withInp a.inp).withPort rest).quiet := by
  unfold step
  rw [takeArrival_cons h]
  rfl

/-! ### The sub-steps of TICK in RUNNING (R143): which components each one may write -/

theorem tickSpeed_frame (s : State) :
    (tickSpeed s).tracker = s.tracker ∧ (tickSpeed s).direction = s.direction ∧ (tickSpeed s).pi = s.pi ∧
      (tickSpeed s).report = s.report ∧ (tickSpeed s).cfg = s.cfg ∧ (tickSpeed s).inp = s.inp ∧
      (tickSpeed s).port = s.port ∧ (tickSpeed s).counter.cnt = s.counter.cnt ∧
      (tickSpeed s).counter.tog = s.counter.tog ∧ (tickSpeed s).counter.chl = s.counter.chl := by
  unfold tickSpeed
  split <;> simp [doSpdupd]

theorem evalDirection_frame (dv : Int) (s : State) :
    (evalDirection dv s).tracker.ref = s.tracker.ref ∧ (evalDirection dv s).counter = s.counter ∧
      (evalDirection dv s).pi = s.pi ∧ (evalDirection dv s).sequencer = s.sequencer ∧
      (evalDirection dv s).report = s.report ∧ (evalDirection dv s).cfg = s.cfg ∧ (evalDirection dv s).inp = s.inp ∧
      (evalDirection dv s).outputs = s.outputs ∧ (evalDirection dv s).port = s.port := by
  unfold evalDirection doDthr
  split
  · split <;> simp
  · simp

theorem tickDirection_frame (dv : Int) (s : State) :
    (tickDirection dv s).tracker.ref = s.tracker.ref ∧ (tickDirection dv s).counter = s.counter ∧
      (tickDirection dv s).pi = s.pi ∧ (tickDirection dv s).report = s.report ∧ (tickDirection dv s).cfg = s.cfg ∧
      (tickDirection dv s).inp = s.inp ∧ (tickDirection dv s).outputs = s.outputs ∧
      (tickDirection dv s).port = s.port := by
  have h := evalDirection_frame dv s
  unfold tickDirection stampDirection
  split <;> simp [h]

theorem tickControl_frame (dv : Int) (s : State) :
    (tickControl dv s).tracker = s.tracker ∧ (tickControl dv s).counter = s.counter ∧
      (tickControl dv s).direction = s.direction ∧ (tickControl dv s).report = s.report ∧
      (tickControl dv s).cfg = s.cfg ∧ (tickControl dv s).inp = s.inp ∧ (tickControl dv s).outputs = s.outputs ∧
      (tickControl dv s).port = s.port := by
  unfold tickControl
  split <;> simp

/-! ### The same sub-steps as record updates -/

/-- Sub-step 4. -/
theorem tickSpeed_eq (s : State) : tickSpeed s =
    if s.cfg.mode = 1 ∧ due s.inp s.sequencer.tlastspd s.cfg.tspd then
      { s with
        counter := doSpdupd s.cfg s.counter
        sequencer := { s.sequencer with tlastspd := s.inp.now }
        outputs := { s.outputs with spdStb := true } }
    else s := rfl

/-- Sub-step 6, the evaluation while not latched. -/
theorem evalDirection_eq (dv : Int) (s : State) (h : latched s.direction = false) : evalDirection dv s =
    { s with
      direction := if s.cfg.dstrat = 0 then
          { s.direction with dir := classify (normDelta (dv - s.tracker.prevang.toInt)) s.cfg.thresh.toInt }
        else doDhcls s.cfg s.direction
      tracker := if s.cfg.dstrat = 0 then { s.tracker with prevang := toFx dv } else s.tracker } := by
  unfold evalDirection doDthr
  split
  · rw [if_neg (by simp [h])]; rfl
  · rfl

/-- Sub-step 6. -/
theorem tickDirection_eq (dv : Int) (s : State) : tickDirection dv s =
    if latched s.direction = false ∧ due s.inp s.sequencer.tlastdir s.cfg.tdir then
    { s with
      direction := if s.cfg.dstrat = 0 then
          { s.direction with dir := classify (normDelta (dv - s.tracker.prevang.toInt)) s.cfg.thresh.toInt }
        else doDhcls s.cfg s.direction
      tracker := if s.cfg.dstrat = 0 then { s.tracker with prevang := toFx dv } else s.tracker
      sequencer := { s.sequencer with tlastdir := s.inp.now } } else s := by
  unfold tickDirection
  by_cases h : latched s.direction = false
  · simp only [h, evalDirection_eq dv s h]; simp; rfl
  · simp [h]

/-- Sub-step 7. -/
theorem tickControl_eq (dv : Int) (s : State) : tickControl dv s =
    if due s.inp s.sequencer.tlastpi s.cfg.tctrl then
      { s with
        pi := doPistep s.cfg s.sequencer.cmd.toInt (meas dv s) s.pi
        sequencer := { s.sequencer with tlastpi := s.inp.now } }
    else s := rfl

/-- Sub-step 8. -/
theorem tickExit_eq (s : State) : tickExit s =
    if s.cfg.ttrial.toNat ≤ s.sequencer.elapsed.toNat ∨ repsExhausted s then
      { s with sequencer := { s.sequencer with seq := .reporting } }
    else s := rfl

/-- The exit test writes `SEQ` alone (R143 sub-step 8). -/
theorem tickExit_cases (s : State) :
    tickExit s = s ∨ tickExit s = s.withSequencer { s.sequencer with seq := .reporting } := by
  unfold tickExit
  split <;> simp

end Sys2Proof.Machine
end

