-- ==== Sys2Proof/Laws/PerInstr.lean ====
section
/-! SUPPORT. Families stated per instruction, one lemma per constructor. -/

/-- The encoder puts the opcode and the operands of the instruction in their fields (30_encoding.md rule R80). -/
def Sys2Proof.Laws.FieldsInPlace.Statement (i : Sys2Proof.Instr) : Prop :=
  Sys2Proof.opField (Sys2Proof.encode i) = i.opcode ∧ Sys2Proof.aField (Sys2Proof.encode i) = i.aOperand ∧
    Sys2Proof.dField (Sys2Proof.encode i) = i.dOperand

namespace Sys2Proof.Laws.FieldsInPlace

theorem of_encode (i : Instr) : Statement i := ⟨opField_encode i, aField_encode i, dField_encode i⟩

theorem nop : Statement .nop := of_encode _
theorem tick : Statement .tick := of_encode _
theorem start : Statement .start := of_encode _
theorem setcmd (d : Word) : Statement (.setcmd d) := of_encode _
theorem rdreg (a : RegNumber) : Statement (.rdreg a) := of_encode _
theorem wrreg (a : RegNumber) (d : Word) : Statement (.wrreg a d) := of_encode _
theorem gdec : Statement .gdec := of_encode _
theorem cal : Statement .cal := of_encode _
theorem rdisp : Statement .rdisp := of_encode _
theorem ptick : Statement .ptick := of_encode _
theorem prst : Statement .prst := of_encode _
theorem spdupd : Statement .spdupd := of_encode _
theorem dthr : Statement .dthr := of_encode _
theorem dhsmp : Statement .dhsmp := of_encode _
theorem dhcls : Statement .dhcls := of_encode _
theorem drst : Statement .drst := of_encode _
theorem pigain : Statement .pigain := of_encode _
theorem pistep (d : Word) : Statement (.pistep d) := of_encode _
theorem pirst : Statement .pirst := of_encode _

end Sys2Proof.Laws.FieldsInPlace
end

