-- ==== Sys2Proof/Tests/Slice0.lean ====
section
/-! SUPPORT. Tests on fixed values, each from a vector of spec/95_test_vectors.md or an example of the rule it names,
and one witness for each statement that has hypotheses: a concrete state and operands that meet all of them. -/

namespace Sys2Proof.Tests
open Sys2Proof Sys2Proof.Machine

/-- The next state of an outcome. -/
def nextOf : Host.Outcome State Fault Refusal → Option State
  | .next s => some s
  | .fault _ => none
  | .refused _ => none

/-- The state after reset with another sequencer state. -/
def inSeq (q : Seq) : State := State.reset.withSequencer { Sequencer.reset with seq := q }

/-- A sample with the given pins, channels and clock. -/
def sample (g : BitVec 5) (ch1 ch2 : BitVec 1) (now : BitVec 32) : Inputs :=
  { g := g, ch1 := ch1, ch2 := ch2, now := now, ticks := 0, rst := false }

/-- The state after one step that takes a word with a sample. -/
def after (w : CommandWord) (x : Inputs) (s : State) : Option State :=
  nextOf (step (s.withPort [{ word := w, inp := x }]))

/-! ### Decoding: one word per operation, written out from the layout of 30_encoding.md R80 and R83 -/

theorem test_decode_nop : decode 0b000000000000000000000000000000000000000000000000#48 = .ok .nop := rfl
theorem test_decode_tick : decode 0b000000010000000000000000000000000000000000000000#48 = .ok .tick := rfl
theorem test_decode_start : decode 0b000000100000000000000000000000000000000000000000#48 = .ok .start := rfl
/-- `SETCMD fx(-30)`, R140. -/
theorem test_decode_setcmd : decode 0x0300FFE20000#48 = .ok (.setcmd 0xFFE20000#32) := rfl
/-- `RDREG CPR`, R161. -/
theorem test_decode_rdreg : decode 0b000001000100110100000000000000000000000000000000#48 = .ok (.rdreg 0x4D#8) := rfl
/-- `WRREG THRESH, fx(2)`, R162. -/
theorem test_decode_wrreg : decode 0x054900020000#48 = .ok (.wrreg 0x49#8 0x00020000#32) := rfl
theorem test_decode_gdec : decode 0b000100000000000000000000000000000000000000000000#48 = .ok .gdec := rfl
theorem test_decode_cal : decode 0x11FFDEADBEEF#48 = .ok .cal := rfl
theorem test_decode_rdisp : decode 0x120000000000#48 = .ok .rdisp := rfl
theorem test_decode_ptick : decode 0b001000000000000000000000000000000000000000000000#48 = .ok .ptick := rfl
theorem test_decode_prst : decode 0x210000000000#48 = .ok .prst := rfl
theorem test_decode_spdupd : decode 0x220000000000#48 = .ok .spdupd := rfl
theorem test_decode_dthr : decode 0b001100000000000000000000000000000000000000000000#48 = .ok .dthr := rfl
theorem test_decode_dhsmp : decode 0x310000000000#48 = .ok .dhsmp := rfl
theorem test_decode_dhcls : decode 0x320000000000#48 = .ok .dhcls := rfl
theorem test_decode_drst : decode 0x330000000000#48 = .ok .drst := rfl
theorem test_decode_pigain : decode 0b010000000000000000000000000000000000000000000000#48 = .ok .pigain := rfl
/-- `PISTEP fx(78.75)`, T11 (b). -/
theorem test_decode_pistep : decode 0x4100004EC000#48 = .ok (.pistep 0x004EC000#32) := rfl
theorem test_decode_pirst : decode 0x420000000000#48 = .ok .pirst := rfl

/-- The first and the last reserved opcode of each gap of R84. -/
theorem test_decode_reserved : ([0x06, 0x0F, 0x13, 0x1F, 0x23, 0x2F, 0x34, 0x3F, 0x43, 0xFF] : List (BitVec 8)).map
    (fun op => decode (op ++ 0#40)) =
    ([0x06, 0x0F, 0x13, 0x1F, 0x23, 0x2F, 0x34, 0x3F, 0x43, 0xFF] : List (BitVec 8)).map
    (fun op => .error (.reservedOpcode op)) := rfl

/-- The words of P3 to P8 that have operands, encoded. -/
theorem test_encode_operands : encode (.wrreg 0x4D#8 0x00010064#32) = 0x054D00010064#48 ∧
    encode (.rdreg 0x13#8) = 0x041300000000#48 ∧ encode (.setcmd 0x005A0000#32) = 0x0300005A0000#48 ∧
    encode .tick = 0x010000000000#48 := by decide

theorem test_decodeTableWord : decodeTableWord 48 0x4100004EC000 = some (.pistep 0x004EC000#32) ∧
    decodeTableWord 48 0x060000000000 = none := by decide

/-- A word placed by the host is what the next step runs. -/
theorem test_withFetchWord : nextOf (step (State.reset.withFetchWord 48 0x0300001E0000)) =
    nextOf (exec (.setcmd 0x001E0000#32) State.reset) := by decide

/-! ### Well-formedness: a term that each check refuses (R87) -/

theorem test_wf_refuses_register_number : AsmReg.wellFormed (.number 256) = false := by decide
theorem test_wf_refuses_wide_pattern : AsmValue.wellFormed (.pattern 4294967296) = false := by decide
theorem test_wf_refuses_large_integer : AsmValue.wellFormed (.integer 4294967296) = false := by decide
theorem test_wf_refuses_small_integer : AsmValue.wellFormed (.integer (-2147483649)) = false := by decide
/-- 0.00001 × 65536 is no integer. -/
theorem test_wf_refuses_fx_fraction : AsmValue.wellFormed (.fx 1 5) = false := by decide
theorem test_wf_refuses_large_fx : AsmValue.wellFormed (.fx 32768 0) = false := by decide
theorem test_wf_refuses_small_fx : AsmValue.wellFormed (.fx (-32769) 0) = false := by decide
theorem test_wf_refuses_operand_of_Z :
    AsmLine.wellFormed { mnemonic := .tick, reg := none, value := some (.pattern 0) } = false ∧
    AsmLine.wellFormed { mnemonic := .cal, reg := some (.name .ref), value := none } = false := by decide
theorem test_wf_refuses_shape_of_A :
    AsmLine.wellFormed { mnemonic := .rdreg, reg := none, value := none } = false ∧
    AsmLine.wellFormed { mnemonic := .rdreg, reg := some (.name .cpr), value := some (.pattern 0) } = false ∧
    AsmLine.wellFormed { mnemonic := .rdreg, reg := some (.number 256), value := none } = false := by decide
theorem test_wf_refuses_shape_of_D :
    AsmLine.wellFormed { mnemonic := .setcmd, reg := none, value := none } = false ∧
    AsmLine.wellFormed { mnemonic := .pistep, reg := some (.name .cpr), value := some (.pattern 0) } = false ∧
    AsmLine.wellFormed { mnemonic := .pistep, reg := none, value := some (.fx 1 5) } = false := by decide
theorem test_wf_refuses_shape_of_AD :
    AsmLine.wellFormed { mnemonic := .wrreg, reg := some (.name .cpr), value := none } = false ∧
    AsmLine.wellFormed { mnemonic := .wrreg, reg := none, value := some (.pattern 0) } = false ∧
    AsmLine.wellFormed { mnemonic := .wrreg, reg := some (.number 256), value := some (.pattern 0) } = false ∧
    AsmLine.wellFormed { mnemonic := .wrreg, reg := some (.name .cpr), value := some (.pattern 4294967296) } = false := by
  decide
theorem test_wf_refuses_item : AsmItem.wellFormed (.run (.integer 4294967296)) = false ∧
    AsmItem.wellFormed (.op { mnemonic := .start, reg := none, value := some (.pattern 0) }) = false := by decide
theorem test_wf_accepts_every_instruction :
    [Instr.nop, .setcmd 0xFFFFFFFF#32, .rdreg 0xFF#8, .wrreg 0xFF#8 0xFFFFFFFF#32, .pistep 0x80000000#32].all
      Instr.wellFormed = true := by decide

/-- `WRREG THRESH, fx(2)` and `SETCMD fx(11.25)` (R87, R162). -/
theorem test_assemble_lines :
    AsmLine.assemble { mnemonic := .wrreg, reg := some (.name .thresh), value := some (.fx 2 0) } =
      some (.wrreg 0x49#8 0x00020000#32) ∧
    AsmLine.assemble { mnemonic := .setcmd, reg := none, value := some (.fx 1125 2) } =
      some (.setcmd 0x000B4000#32) := by decide

/-- `RUN fx(90)` as two words on one sample, then a `TICK` that names only the clock (R87, R88). -/
theorem test_assemble_program :
    assembleProgram Inputs.low
      [(.run (.fx 90 0), { g := some 0b00010, ch1 := some 1, ch2 := none, now := some 1000, ticks := none }),
       (.op { mnemonic := .tick, reg := none, value := none },
        { g := none, ch1 := none, ch2 := none, now := some 1010, ticks := none })] =
      some [{ word := 0x0300005A0000#48, inp := sample 0b00010 1 0 1000 },
            { word := 0x020000000000#48, inp := sample 0b00010 1 0 1000 },
            { word := 0x010000000000#48, inp := sample 0b00010 1 0 1010 }] := by decide

/-! ### One step each -/

/-- P8 step 23. -/
theorem test_nop : after 0x000000000000#48 (sample 0b01101 1 0 5) (inSeq .running) =
    some ((inSeq .running).withInp (sample 0b01101 1 0 5)) := by decide

/-- P8 step 10: a reserved word. -/
theorem test_reserved : after 0x06AB12345678#48 (sample 0b10110 1 0 9) State.reset =
    some (State.reset.withInp (sample 0b10110 1 0 9)) := by decide

/-- R161's example: `RDREG CPR` after reset, and an unmapped number. -/
theorem test_rdreg : (after 0x044D00000000#48 Inputs.low State.reset).map (fun s => s.outputs.resp) =
      some (some 0x000000E4#32) ∧
    (after 0x040F00000000#48 Inputs.low State.reset).map (fun s => s.outputs.resp) = some (some 0#32) := by decide

/-- P8 step 8, and T11 (n): the pins, and the two views of `INTEG = −5`. -/
theorem test_rdreg_views :
    (after 0x046000000000#48 (sample 0b10110 1 0 0) State.reset).map (fun s => s.outputs.resp) =
      some (some 0x00000036#32) ∧
    (after 0x040B00000000#48 Inputs.low (State.reset.withPi { Controller.reset with integ := -5 })).map
      (fun s => s.outputs.resp) = some (some 0xFFFFFFFB#32) ∧
    (after 0x040C00000000#48 Inputs.low (State.reset.withPi { Controller.reset with integ := -5 })).map
      (fun s => s.outputs.resp) = some (some 0xFFFFFFFF#32) := by decide

/-- P8 steps 1, 2 and 14: masking to 16 bits and to 1 bit, and refusal in RUNNING. -/
theorem test_wrreg_masks :
    (after 0x054D00010064#48 Inputs.low State.reset).map (fun s => s.cfg.cpr) = some 100#16 ∧
    (after 0x054000000002#48 Inputs.low State.reset).map (fun s => s.cfg.mode) = some 0#1 ∧
    (after 0x054D00000064#48 Inputs.low (inSeq .running)).map (fun s => s.cfg.cpr) = some 228#16 := by decide

/-- P8 steps 4 and 5: a register the host may not write and an unmapped number. -/
theorem test_wrreg_ignores : after 0x050200000063#48 Inputs.low State.reset = some State.reset ∧
    after 0x050F00000005#48 Inputs.low State.reset = some State.reset := by decide

/-- R100's example. -/
theorem test_gdec : (after 0x100000000000#48 (sample 0b01101 0 0 0) State.reset).map (fun s => s.outputs.resp) =
    some (some 9#32) := by decide

/-- T3 row 1. -/
theorem test_cal : (after 0x110000000000#48 (sample 0b10001 0 0 0)
    (State.reset.withTracker { ref := 3, prevang := 2949120#32 })).map (fun s => s.tracker) =
    some { ref := 30, prevang := 0 } := by decide

/-- R102's example, and the row 0 to 17 of T2's named cases. -/
theorem test_rdisp : (after 0x120000000000#48 (sample 0b00011 0 0 0)
      (State.reset.withTracker { ref := 30, prevang := 0 })).map (fun s => s.outputs.resp) =
      some (some 0x002D0000#32) ∧
    (after 0x120000000000#48 (sample 0b11001 0 0 0) State.reset).map (fun s => s.outputs.resp) =
      some (some 0xFF574000#32) := by decide

/-- T2: the two ends of the ring that are the same point. -/
theorem test_rdisp_half_turn :
    (after 0x120000000000#48 (sample 0b11000 0 0 0) State.reset).map (fun s => s.outputs.resp) =
      some (some 0x00B40000#32) ∧
    (after 0x120000000000#48 (sample 0b00000 0 0 0)
      (State.reset.withTracker { ref := 16, prevang := 0 })).map (fun s => s.outputs.resp) =
      some (some 0xFF4C0000#32) := by decide

/-- R110's example, and the saturation of T4. -/
theorem test_ptick : (after 0x200000000000#48 (sample 0 1 0 0)
      (State.reset.withCounter { Counter.reset with cnt := 5 })).map (fun s => s.counter) =
      some { Counter.reset with cnt := 6, tog := 1, chl := 0b01 } ∧
    (after 0x200000000000#48 (sample 0 1 0 0)
      (State.reset.withCounter { Counter.reset with cnt := 4294967295 })).map (fun s => s.counter) =
      some { Counter.reset with cnt := 4294967295, tog := 1, chl := 0b01 } := by decide

/-- T4's last table, rows 2 and 3. -/
theorem test_ptick_toggle_set : (after 0x200000000000#48 (sample 0 0 1 0)
      (State.reset.withCounter { Counter.reset with cnt := 7, tog := 1 })).map (fun s => s.counter) =
      some { Counter.reset with cnt := 7, tog := 1, chl := 0b10 } ∧
    (after 0x200000000000#48 (sample 0 1 1 0)
      (State.reset.withCounter { Counter.reset with cnt := 7, tog := 1 })).map (fun s => s.counter) =
      some { Counter.reset with cnt := 8, tog := 0, chl := 0b11 } := by decide

/-- T4's last row. -/
theorem test_prst : (after 0x210000000000#48 Inputs.low
    (State.reset.withCounter { cnt := 7, tog := 1, chl := 0b10, cntlast := 5, spd := 123 })).map
    (fun s => s.counter) = some Counter.reset := by decide

/-- T5 rows 3 and 11. -/
theorem test_spdupd : (after 0x220000000000#48 Inputs.low
      (State.reset.withCounter { Counter.reset with cnt := 100, cntlast := 62 })).map (fun s => s.counter) =
      some { Counter.reset with cnt := 100, cntlast := 100, spd := 0x00640000 } ∧
    (after 0x220000000000#48 Inputs.low ((State.reset.withCfg { Tunables.reset with cpr := 1, tspd := 1 }).withCounter
      { Counter.reset with cnt := 200000 })).map (fun s => s.counter.spd) = some 0x7FFFFFFF#32 := by decide

/-- T5 rows 8 and 9: a zero divisor. -/
theorem test_spdupd_zero_divisor : (after 0x220000000000#48 Inputs.low
      ((State.reset.withCfg { Tunables.reset with cpr := 0 }).withCounter { Counter.reset with cnt := 3 })).map
      (fun s => s.counter.spd) = some 0x7FFFFFFF#32 ∧
    (after 0x220000000000#48 Inputs.low (State.reset.withCfg { Tunables.reset with cpr := 0 })).map
      (fun s => s.counter.spd) = some 0#32 := by decide

/-- T8 rows 1 and 6: two positions forward, and across the seam. -/
theorem test_dthr : (after 0x300000000000#48 (sample 0b00011 0 0 0) State.reset).map
      (fun s => (s.direction.dir, s.tracker.prevang)) = some (1#2, 1474560#32) ∧
    (after 0x300000000000#48 (sample 0b11001 0 0 0) (State.reset.withTracker { ref := 0, prevang := 11059200 })).map
      (fun s => (s.direction.dir, s.tracker.prevang.toInt)) = some (1#2, -11059200) := by decide

/-- T8 rows 2 and 13: a delta equal to the threshold, and a latched direction. -/
theorem test_dthr_still_and_latched : (after 0x300000000000#48 (sample 0b00001 0 0 0) State.reset).map
      (fun s => (s.direction.dir, s.tracker.prevang)) = some (0#2, 737280#32) ∧
    (after 0x300000000000#48 (sample 0b00011 0 0 0)
      (State.reset.withDirection { Direction.reset with dir := 2 })).map
      (fun s => (s.direction.dir, s.tracker.prevang)) = some (2#2, 0#32) := by decide

/-- T9, first table: the four edges. -/
theorem test_dhsmp_edges :
    ([(0, 1, 1), (1, 0, 0), (0, 0, 1), (1, 1, 0)] : List (BitVec 1 × BitVec 1 × BitVec 1)).map (fun p =>
      (after 0x310000000000#48 (sample 0 p.2.1 p.2.2 0)
        (State.reset.withDirection { Direction.reset with pch2 := p.1 })).map
        (fun s => (s.direction.tally, s.direction.pch2))) =
      [some (61#16, 1#1), some (61#16, 0#1), some (59#16, 1#1), some (59#16, 0#1)] := by decide

/-- T9, first table: the two saturations. -/
theorem test_dhsmp_saturates : (after 0x310000000000#48 (sample 0 1 1 0)
      (State.reset.withDirection { Direction.reset with tally := 65535 })).map (fun s => s.direction.tally) =
      some 65535#16 ∧
    (after 0x310000000000#48 (sample 0 0 1 0)
      (State.reset.withDirection { Direction.reset with tally := 0 })).map (fun s => s.direction.tally) =
      some 0#16 := by decide

/-- T9, second table, rows 1 to 4: both tests are strict. -/
theorem test_dhcls : ([101, 100, 20, 19] : List (BitVec 16)).map (fun v =>
      (after 0x320000000000#48 Inputs.low (State.reset.withDirection { Direction.reset with tally := v })).map
        (fun s => s.direction.dir)) = [some 1#2, some 0#2, some 0#2, some 2#2] := by decide

/-- T9, second table, rows 6 and 8: the upper test first, and the latch. -/
theorem test_dhcls_order : (after 0x320000000000#48 Inputs.low
      ((State.reset.withCfg { Tunables.reset with hyshi := 40, hyslo := 70 }).withDirection
        { Direction.reset with tally := 50 })).map (fun s => s.direction.dir) = some 1#2 ∧
    (after 0x320000000000#48 Inputs.low
      (State.reset.withDirection { Direction.reset with dir := 1, tally := 19 })).map (fun s => s.direction.dir) =
      some 1#2 := by decide

/-- T9, the line after its second table. -/
theorem test_drst : (after 0x330000000000#48 (sample 0 0 1 0)
    (State.reset.withDirection { dir := 2, tally := 17, pch2 := 0 })).map (fun s => s.direction) =
    some { dir := 0, tally := 60, pch2 := 1 } := by decide

/-- T10 rows 2 and 8: truncation toward zero on both signs. -/
theorem test_pigain : (after 0x400000000000#48 Inputs.low
      (State.reset.withSequencer { Sequencer.reset with cmd := 6553600 })).map (fun s => s.pi.kp) =
      some 58982#32 ∧
    (after 0x400000000000#48 Inputs.low ((State.reset.withCfg { Tunables.reset with k := -65536 }).withSequencer
      { Sequencer.reset with cmd := 458752 })).map (fun s => s.pi.kp.toInt) = some (-842605) := by decide

/-- T10 rows 12 and 14: a command of zero. -/
theorem test_pigain_zero : (after 0x400000000000#48 Inputs.low State.reset).map (fun s => s.pi.kp) =
      some 0x7FFFFFFF#32 ∧
    (after 0x400000000000#48 Inputs.low (State.reset.withCfg { Tunables.reset with k := -65536 })).map
      (fun s => s.pi.kp) = some 0x80000000#32 := by decide

/-- T11 (b) row 2 and T11 (g) row 1: the new integral is used, and the shift rounds down. -/
theorem test_pistep : (after 0x4100000B4000#48 Inputs.low ((State.reset.withCfg { Tunables.reset with ki := 32768 }).withPi
        { Controller.reset with integ := 5898240, kp := 65536 } |>.withSequencer
        { Sequencer.reset with cmd := 5898240 })).map (fun s => s.pi) =
      some { err := 5160960, integ := 11059200, out := 10690560, kp := 65536 } ∧
    (after 0x41000059FFFF#48 Inputs.low ((State.reset.withCfg { Tunables.reset with outmin := -65536 }).withPi
        { Controller.reset with kp := -32768 } |>.withSequencer
        { Sequencer.reset with cmd := 5898240 })).map (fun s => s.pi.out.toInt) = some (-1) := by decide

/-- T11 (i) and T11 (m): the forced value is not clamped, and the integral saturates. -/
theorem test_pistep_ends : (after 0x410000640000#48 Inputs.low
      ((State.reset.withCfg { Tunables.reset with mode := 1, base := 19660800 }).withSequencer
        { Sequencer.reset with cmd := 6553600 })).map (fun s => s.pi.out) = some 19660800#32 ∧
    (after 0x410000000000#48 Inputs.low ((State.reset.withPi
        { Controller.reset with integ := 140737488355318 }).withSequencer
        { Sequencer.reset with cmd := 23592960 })).map (fun s => s.pi.integ.toInt) = some 140737488355327 := by decide

/-- T11, its last line. -/
theorem test_pirst : (after 0x420000000000#48 Inputs.low
    (State.reset.withPi { err := 5, integ := 123456, out := 7, kp := 9 })).map (fun s => s.pi) =
    some { err := 5, integ := 0, out := 7, kp := 9 } := by decide

/-- R140's example and its corner case (b). -/
theorem test_setcmd : (after 0x0300FFE20000#48 Inputs.low State.reset).map
      (fun s => (s.sequencer.cmd, s.sequencer.rev, dirSel s)) = some (0x001E0000#32, 1#1, 1#1) ∧
    (after 0x030080000000#48 Inputs.low State.reset).map (fun s => (s.sequencer.cmd, s.sequencer.rev)) =
      some (0x7FFFFFFF#32, 1#1) := by decide

/-- R141's example. -/
theorem test_start : (after 0x020000000000#48 (sample 0 0 0 1000)
    (State.reset.withSequencer { Sequencer.reset with cmd := 5898240 })).map
    (fun s => (s.sequencer.seq, s.sequencer.rep, s.tracker.ref, s.pi.kp, s.sequencer.tstart)) =
    some (.running, 1#32, 0#5, 65536#32, 1000#32) := by decide

/-- R141: a repeat budget of 0. -/
theorem test_start_no_trial : (after 0x020000000000#48 (sample 0 0 0 1000)
    (State.reset.withCfg { Tunables.reset with maxreps := 0 })).map
    (fun s => (s.sequencer.seq, s.sequencer.rep, s.sequencer.tstart)) = some (.done, 1#32, 0#32) := by decide

/-- The state of R143's example. -/
def inTrial : State :=
  (State.reset.withPi { Controller.reset with kp := 65536 }).withSequencer
    { Sequencer.reset with seq := .running, tstart := 1000, tlastpi := 1000, tlastdir := 1000, tlastspd := 1000, cmd := 5898240 }

/-- R143's example. -/
theorem test_tick_running : (after 0x010000000000#48 (sample 0 0 0 1010) inTrial).map
    (fun s => (s.sequencer.elapsed, s.counter.cnt, s.pi, s.sequencer.tlastpi, s.sequencer.seq, duty s)) =
    some (10#32, 0#32, { err := 5898240, integ := 5898240, out := 5898240, kp := 65536 }, 1010#32, .running, 90#8) := by
  decide

/-- R147's example. -/
theorem test_tick_reporting : (after 0x010000000000#48 (sample 0b01100 0 0 5010)
    (((inSeq .reporting).withCounter { Counter.reset with cnt := 57 }).withDirection
      { Direction.reset with dir := 1 })).map
    (fun s => (s.report, s.outputs.rptStb, s.sequencer.rep, s.tracker.ref, s.sequencer.tstart, s.sequencer.seq)) =
    some ({ rptAbs := 5898240, rptInc := 5898240, rptDiff := 0, rptDir := 1, rptSpd := 0, rptRep := 1, rptn := 1 },
      true, 2#32, 8#5, 5010#32, .running) := by decide

/-- R190: reset overrides the command of its step and leaves DONE. -/
theorem test_reset_overrides : after 0x0300FFE20000#48 { Inputs.low with rst := true }
    ((inSeq .done).withPi { Controller.reset with out := 7 }) =
    some (State.reset.withInp { Inputs.low with rst := true }) := by decide

/-! ### Witnesses: states and operands that meet the hypotheses of the statements -/

/-- The states in IDLE and outside it that most statements ask for. -/
theorem witness_sequencer_states : State.reset.sequencer.seq = .idle ∧ (inSeq .running).sequencer.seq ≠ .idle ∧
    (inSeq .reporting).sequencer.seq ≠ .idle ∧ (inSeq .done).sequencer.seq ≠ .idle := by decide

theorem witness_DecodeOfEncodeIsTheInstruction : Instr.nop.format = .z ∧ (Instr.setcmd 5).format = .d ∧
    (Instr.rdreg 5).format = .a := by decide

theorem witness_UnusedFieldsAreIgnored : decode 0x044D00000000#48 = .ok (.rdreg 0x4D#8) ∧
    (0x044DDEADBEEF#48).extractLsb' 40 8 = (0x044D00000000#48).extractLsb' 40 8 ∧
    (0x044DDEADBEEF#48).extractLsb' 32 8 = (0x044D00000000#48).extractLsb' 32 8 ∧
    (Instr.rdreg 0x4D#8).format = .a := by decide

theorem witness_OpcodeMapRowByRow : 0x11FFDEADBEEF#48 &&& 0xFF0000000000#48 = 0x110000000000#48 ∧
    0x42FFFFFFFFFF#48 &&& 0xFF0000000000#48 = 0x420000000000#48 := by decide

theorem decode_reserved_06 (i : Instr) : decode 0x06AB12345678#48 ≠ .ok i := by
  have h : decode 0x06AB12345678#48 = .error (.reservedOpcode 0x06#8) := rfl
  rw [h]
  exact nofun

theorem witness_ReservedWordsHaveNoEffect : (∀ i : Instr, decode 0x06AB12345678#48 ≠ .ok i) ∧ Inputs.low.rst = false ∧
    (State.reset.withPort [{ word := 0x06AB12345678#48, inp := Inputs.low }]).port =
      { word := 0x06AB12345678#48, inp := Inputs.low } :: [] :=
  ⟨decode_reserved_06, rfl, rfl⟩

theorem witness_PseudoInstructionsExpand : AsmValue.wellFormed (.fx 90 0) = true := by decide

theorem witness_AssembledLinesCarryTheirOperands :
    AsmLine.wellFormed { mnemonic := .wrreg, reg := some (.number 255), value := some (.pattern 4294967295) } = true ∧
    AsmLine.wellFormed { mnemonic := .tick, reg := some (.number 255), value := none } = false := by decide

theorem witness_AssembledValuesStandForTheirText : AsmValue.wellFormed (.pattern 4294967295) = true ∧
    AsmValue.wellFormed (.integer (-2147483648)) = true ∧ AsmValue.wellFormed (.integer 2147483647) = true ∧
    AsmValue.wellFormed (.integer 2147483648) = true ∧ AsmValue.wellFormed (.fx (-32768) 0) = true ∧
    AsmReg.wellFormed (.number 255) = true := by decide

theorem witness_StepRunsTheDecodedCommand :
    (State.reset.withPort [{ word := 0x120000000000#48, inp := Inputs.low }]).port =
      { word := 0x120000000000#48, inp := Inputs.low } :: [] ∧ Inputs.low.rst = false ∧
    decode 0x120000000000#48 = .ok .rdisp := by decide

theorem witness_PlacedWordRunsNext : State.reset.port = [] := by decide

theorem witness_EmptyPortLeavesTheRegisters : (inSeq .running).port = [] := by decide

theorem witness_ResetRestoresEveryRegister :
    ((inSeq .running).withPort [{ word := 0#48, inp := { Inputs.low with rst := true } }]).port =
      { word := 0#48, inp := { Inputs.low with rst := true } } :: [] ∧ (inSeq .done).sequencer.seq = .done ∧
    (∃ t, step ((inSeq .done).withPort [{ word := 0#48, inp := { Inputs.low with rst := true } }]) = .next t ∧
      t.sequencer.seq ≠ .done) :=
  ⟨rfl, rfl, _, rfl, by decide⟩

theorem witness_StepForgetsTheOldSample : (State.reset.withPort [{ word := 0#48, inp := Inputs.low }]).port ≠ [] := by
  decide

theorem witness_WordsLeaveInArrivalOrder :
    (∃ t, step (State.reset.withPort [{ word := 0#48, inp := Inputs.low }]) = .next t) ∧
    (State.reset.withPort [{ word := 0#48, inp := Inputs.low }]).port ≠ [] :=
  ⟨⟨_, rfl⟩, by decide⟩

theorem witness_CommandsOutsideIdleAreIgnored : (inSeq .running).sequencer.seq ≠ .idle ∧
    (inSeq .done).sequencer.seq ≠ .idle ∧ acceptedAlways .start = false := by decide

theorem witness_NopDoesNothing : (0x00FFDEADBEEF#48).extractLsb' 40 8 = 0x00#8 := by decide

/-- Mapped numbers at the ends of each block, and unmapped ones beside them (R64). -/
theorem witness_RdregReadsTheRegisterMap : (0x044D00000000#48).extractLsb' 40 8 = 0x04#8 ∧
    (0x00, 0) ∈ registerTable State.reset ∧ (0x0E, 0) ∈ registerTable State.reset ∧
    (0x18, 0) ∈ registerTable State.reset ∧ (0x52, 10) ∈ registerTable State.reset ∧
    (0x62, 0) ∈ registerTable State.reset ∧ (0x0F#8).toNat ∉ (registerTable State.reset).map Prod.fst ∧
    (0x63#8).toNat ∉ (registerTable State.reset).map Prod.fst ∧
    (0xFF#8).toNat ∉ (registerTable State.reset).map Prod.fst := by decide

theorem witness_WrregWritesOneConfigurationRegister : (0x054D00000064#48).extractLsb' 40 8 = 0x05#8 ∧
    State.reset.sequencer.seq = .idle ∧ ((0x40#8).toNat, 1) ∈ configWidths ∧ ((0x52#8).toNat, 16) ∈ configWidths ∧
    (0x3F#8).toNat ∉ configWidths.map Prod.fst ∧ (0x53#8).toNat ∉ configWidths.map Prod.fst ∧
    (0x41#8 : RegNumber) ≠ 0x40#8 ∧ (inSeq .done).sequencer.seq ≠ .idle := by decide

theorem witness_ReadsAreHarmlessWritesIdempotent : (∃ t, exec (.rdreg 0x60#8) State.reset = .next t) ∧
    (∃ t, exec (.wrreg 0x4D#8 100#32) State.reset = .next t) := ⟨⟨_, rfl⟩, ⟨_, rfl⟩⟩

theorem witness_RegisterMapHidesNothing : ∃ t : State, t ≠ State.reset ∧ State.reset.inp = t.inp ∧
    ∀ a : RegNumber, readReg State.reset a = readReg t a :=
  ⟨State.reset.withPort [{ word := 0, inp := Inputs.low }], by decide, rfl, by decide⟩

theorem witness_OnlyWrregInIdleConfigures : ∃ t, exec (.wrreg 0x4D#8 100#32) State.reset = .next t ∧
    t.cfg ≠ State.reset.cfg := ⟨_, rfl, by decide⟩

theorem witness_ReferenceFixedInsideATrial :
    (∃ t, exec .cal (State.reset.withInp (sample 0b11000 0 0 0)) = .next t ∧ t.tracker.ref ≠ State.reset.tracker.ref) ∧
    (∃ t, exec .start (State.reset.withInp (sample 0b11000 0 0 0)) = .next t ∧
      t.tracker.ref ≠ State.reset.tracker.ref) ∧
    (∃ t, exec .tick ((inSeq .reporting).withInp (sample 0b11000 0 0 0)) = .next t ∧
      t.tracker.ref ≠ (inSeq .reporting).tracker.ref) :=
  ⟨⟨_, rfl, by decide⟩, ⟨_, rfl, by decide⟩, ⟨_, rfl, by decide⟩⟩

theorem witness_CountNeverFallsWithinATrial : (inSeq .running).sequencer.seq = .running ∧
    ∃ t, exec .tick ((inSeq .running).withInp (sample 0 1 0 0)) = .next t := ⟨rfl, _, rfl⟩

/-- W4 with two transitions. -/
theorem witness_RunOfPticksCountsTheChanges :
    (∀ x ∈ [sample 0 1 0 0, sample 0 1 1 1], x.rst = false) ∧
    (State.reset.withPort ([sample 0 1 0 0, sample 0 1 1 1].map
      (fun x => { word := 0x200000000000#48, inp := x }) ++ [])).port =
      [sample 0 1 0 0, sample 0 1 1 1].map (fun x => { word := 0x200000000000#48, inp := x }) ++ [] ∧
    State.reset.counter.cnt.toNat + changes State.reset.counter.tog
      ([sample 0 1 0 0, sample 0 1 1 1].map (fun x => x.ch1 ^^^ x.ch2)) < 2 ^ 32 ∧
    changes 0 ([sample 0 1 0 0, sample 0 1 1 1].map (fun x => x.ch1 ^^^ x.ch2)) = 2 := by decide

/-- Each clause of the threshold operation: latched; still, with a delta of exactly 180° and one beyond it. -/
theorem witness_DthrClassifiesOnce : (0x300000000000#48).extractLsb' 40 8 = 0x30#8 ∧
    (State.reset.withDirection { Direction.reset with dir := 1 }).direction.dir ≠ 0 ∧
    (State.reset.withDirection { Direction.reset with dir := 1 }).sequencer.seq = .idle ∧
    State.reset.direction.dir = 0 ∧ (11796480 : Int) = ringDegrees 0b11000#5 0#5 - (0#32 : Fx).toInt ∧
    (-22118400 : Int) = ringDegrees 0b11001#5 0#5 - (11059200#32 : Fx).toInt ∧
    (inSeq .running).sequencer.seq ≠ .idle := by decide

/-! The gated operations: a word with the opcode and arbitrary other fields (R82), IDLE, and a state outside it. -/

theorem witness_GdecAnswersThePosition : (0x10FFDEADBEEF#48).extractLsb' 40 8 = 0x10#8 ∧
    State.reset.sequencer.seq = .idle ∧ (inSeq .running).sequencer.seq ≠ .idle := by decide

theorem witness_CalCapturesTheReference : (0x11FFDEADBEEF#48).extractLsb' 40 8 = 0x11#8 ∧
    State.reset.sequencer.seq = .idle ∧ (inSeq .running).sequencer.seq ≠ .idle := by decide

theorem witness_RdispAnswersTheDisplacement : (0x12FFDEADBEEF#48).extractLsb' 40 8 = 0x12#8 ∧
    State.reset.sequencer.seq = .idle ∧ (inSeq .running).sequencer.seq ≠ .idle := by decide

theorem witness_PtickCountsOneTransition : (0x20FFDEADBEEF#48).extractLsb' 40 8 = 0x20#8 ∧
    State.reset.sequencer.seq = .idle ∧ (inSeq .running).sequencer.seq ≠ .idle := by decide

theorem witness_PrstClearsTheCounter : (0x21FFDEADBEEF#48).extractLsb' 40 8 = 0x21#8 ∧
    State.reset.sequencer.seq = .idle ∧ (inSeq .running).sequencer.seq ≠ .idle := by decide

theorem witness_SpdupdComputesTheWindowedSpeed : (0x22FFDEADBEEF#48).extractLsb' 40 8 = 0x22#8 ∧
    State.reset.sequencer.seq = .idle ∧ (inSeq .running).sequencer.seq ≠ .idle := by decide

theorem witness_DhsmpMovesTheTally : (0x31FFDEADBEEF#48).extractLsb' 40 8 = 0x31#8 ∧
    State.reset.sequencer.seq = .idle ∧ (inSeq .running).sequencer.seq ≠ .idle := by decide

theorem witness_DhclsComparesTheTally : (0x32FFDEADBEEF#48).extractLsb' 40 8 = 0x32#8 ∧
    State.reset.sequencer.seq = .idle ∧ (inSeq .running).sequencer.seq ≠ .idle := by decide

theorem witness_DrstResetsTheEstimator : (0x33FFDEADBEEF#48).extractLsb' 40 8 = 0x33#8 ∧
    State.reset.sequencer.seq = .idle ∧ (inSeq .running).sequencer.seq ≠ .idle := by decide

theorem witness_PigainDividesByTheCommand : (0x40FFDEADBEEF#48).extractLsb' 40 8 = 0x40#8 ∧
    State.reset.sequencer.seq = .idle ∧ (inSeq .running).sequencer.seq ≠ .idle := by decide

theorem witness_PirstClearsTheIntegral : (0x42FFDEADBEEF#48).extractLsb' 40 8 = 0x42#8 ∧
    State.reset.sequencer.seq = .idle ∧ (inSeq .running).sequencer.seq ≠ .idle := by decide

theorem witness_SetcmdLoadsMagnitudeAndFlag : (0x03FFDEADBEEF#48).extractLsb' 40 8 = 0x03#8 ∧
    State.reset.sequencer.seq = .idle ∧ (inSeq .running).sequencer.seq ≠ .idle := by decide

theorem witness_CalThenRdispReadsZero : State.reset.sequencer.seq = .idle := by decide

/-- Both ends of a latch: a command in IDLE that unlatches, and a report that does. -/
theorem witness_LatchedDirectionIsSticky :
    (∃ t, exec .drst (State.reset.withDirection { Direction.reset with dir := 1 }) = .next t ∧
      t.direction.dir ≠ 1 ∧ (1#2 : BitVec 2) ≠ 0) ∧
    (∃ t, step (((inSeq .reporting).withDirection { Direction.reset with dir := 2 }).withPort
        [{ word := 0x010000000000#48, inp := Inputs.low }]) = .next t ∧ t.direction.dir ≠ 2) :=
  ⟨⟨_, rfl, by decide, by decide⟩, ⟨_, rfl, by decide⟩⟩

theorem witness_ArithmeticPrimitives : (-2 : Int) ≠ 0 ∧ (1 : Int) > 0 := by decide

/-- A measurement at the setpoint and one just below it. -/
theorem witness_PistepRunsOneControlStep : (0x41FFDEADBEEF#48).extractLsb' 40 8 = 0x41#8 ∧ State.reset.sequencer.seq = .idle ∧
    (0#32 : Word).toInt ≥ State.reset.sequencer.cmd.toInt ∧
    (0xFFFFFFFF#32 : Word).toInt < State.reset.sequencer.cmd.toInt ∧ (inSeq .done).sequencer.seq ≠ .idle := by decide

theorem witness_AntiWindupFires : State.reset.sequencer.seq = .idle ∧
    State.reset.sequencer.cmd.toInt ≤ (0#32 : Word).toInt ∧ State.reset.cfg.mode = 0 ∧
    (State.reset.withCfg { Tunables.reset with mode := 1 }).cfg.mode = 1 := by decide

theorem witness_ActuationOutputsFollowTheState : (inSeq .running).sequencer.seq = .running ∧
    0 ≤ (0x00FFFFFF#32 : Fx).toInt ∧ (0x00FFFFFF#32 : Fx).toInt < 256 * 65536 ∧
    (inSeq .reporting).sequencer.seq ≠ .running ∧ (∃ t, exec (.setcmd 0xFFE20000#32) State.reset = .next t) :=
  ⟨rfl, by decide, by decide, by decide, _, rfl⟩

/-- A repeat budget of 0 and the reset budget. -/
theorem witness_StartEntersTheFirstTrial : (0x02FFDEADBEEF#48).extractLsb' 40 8 = 0x02#8 ∧
    (State.reset.withCfg { Tunables.reset with maxreps := 0 }).sequencer.seq = .idle ∧
    (State.reset.withCfg { Tunables.reset with maxreps := 0 }).cfg.maxreps.toNat = 0 ∧
    State.reset.cfg.maxreps.toNat ≠ 0 ∧ (inSeq .done).sequencer.seq ≠ .idle := by decide

theorem witness_TickOutsideATrialDoesNothing : State.reset.sequencer.seq = .idle ∧
    (inSeq .done).sequencer.seq = .done := by decide

theorem witness_TickRunsOneControlPass : inTrial.sequencer.seq = .running := by decide

/-- The last report of a session and one before it. -/
theorem witness_TickReportsAndGoesOn : (inSeq .reporting).sequencer.seq = .reporting ∧
    (inSeq .reporting).report.rptn.toNat + 1 < 2 ^ 32 ∧ (inSeq .reporting).sequencer.rep.toNat + 1 < 2 ^ 32 ∧
    (inSeq .reporting).sequencer.rep.toNat + 1 ≤ (inSeq .reporting).cfg.maxreps.toNat ∧
    ((inSeq .reporting).withCfg { Tunables.reset with maxreps := 1 }).sequencer.rep.toNat + 1 >
      ((inSeq .reporting).withCfg { Tunables.reset with maxreps := 1 }).cfg.maxreps.toNat := by decide

theorem witness_SequencerTransitions : (∃ t, exec .start State.reset = .next t) ∧
    (∃ t, step ((inSeq .done).withPort [{ word := 0, inp := { Inputs.low with rst := true } }]) = .next t) :=
  ⟨⟨_, rfl⟩, ⟨_, rfl⟩⟩

/-- Two words that are no TICK, in a running trial. -/
theorem witness_WithoutTicksASessionStands : (inSeq .running).sequencer.seq ≠ .idle ∧
    (∀ a ∈ (((inSeq .running).withPort [{ word := 0x020000000000#48, inp := Inputs.low },
      { word := 0x041000000000#48, inp := Inputs.low }]).port.take 2), a.inp.rst = false ∧
        a.word.extractLsb' 40 8 ≠ 0x01#8) ∧
    NoTick { word := 0x020000000000#48, inp := Inputs.low } ∧
    NoTick { word := 0x041000000000#48, inp := Inputs.low } ∧
    (∃ t, Sys2Proof.core.run 2 ((inSeq .running).withPort [{ word := 0x020000000000#48, inp := Inputs.low },
      { word := 0x041000000000#48, inp := Inputs.low }]) = .next t) := by
  refine ⟨by decide, by decide, ⟨rfl, nofun⟩, ⟨rfl, nofun⟩, _, rfl⟩

/-- A state with a word on the port that meets the invariant's numeric parts, and its step. -/
theorem witness_EveryStepKeepsTheInvariant : ∃ s t : State, CoreInv s ∧ step s = .next t := by
  refine ⟨State.reset.withPort [{ word := 0x020000000000#48, inp := Inputs.low }], _, ?_, rfl⟩
  constructor <;> first | decide | exact ⟨rfl, by decide, by decide⟩ | exact ⟨rfl, rfl⟩

theorem witness_EveryRunRespectsTheRepBudget : ∃ t, Sys2Proof.core.run 1
    { State.reset with port := [{ word := 0x020000000000#48, inp := Inputs.low }] } = .next t ∧
    t.sequencer.seq = .running := ⟨_, rfl, by decide⟩

end Sys2Proof.Tests
end

section
/-! PROOFS of the family 00_scope: the step as a whole (R6, R7), the arithmetic primitives (R11), the Gray
functions (R12) and the clock difference (R14). -/

namespace Sys2Proof.Scope

open Sys2Proof.Machine

/-! ### What exec reads of the model's own fields

Every operation starts from quiet outputs and never looks at the port, so exec is blind to the first and commutes
with any change of the second. -/

/-- A state transformer that neither reads nor writes the port. -/
def PortBlind (f : State → State) : Prop := ∀ s p, f (s.withPort p) = (f s).withPort p

theorem PortBlind.comp {f g : State → State} (hf : PortBlind f) (hg : PortBlind g) :
    PortBlind fun s => f (g s) :=
  fun s p => (congrArg f (hg s p)).trans (hf (g s) p)

theorem PortBlind.ite {c : State → Prop} [DecidablePred c] {f g : State → State}
    (hc : ∀ s p, c (s.withPort p) ↔ c s) (hf : PortBlind f) (hg : PortBlind g) :
    PortBlind fun s => if c s then f s else g s := by
  intro s p
  simp only [hc, hf s p, hg s p]
  split <;> rfl

/-- The register space shows the registers and the sample (R50, R51), not the outputs or the port. -/
theorem readReg_of_outputs_port (s : State) (o : Outputs) (p : List Arrival) (a : RegNumber) :
    readReg { s with outputs := o, port := p } a = readReg s a := by
  unfold readReg
  cases regAt a with
  | none => rfl
  | some r => cases r <;> rfl

theorem doDthr_portBlind (g : State → Int) (hg : ∀ s p, g (s.withPort p) = g s) :
    PortBlind fun s => doDthr (g s) s :=
  PortBlind.ite (f := fun s => s) (fun _ _ => Iff.rfl) (fun _ _ => rfl)
    (fun s p => by rw [hg s p]; rfl)

theorem doneOrEnter_portBlind : PortBlind doneOrEnter :=
  PortBlind.ite (fun _ _ => Iff.rfl) (fun _ _ => rfl) (fun _ _ => rfl)

theorem tickSpeed_portBlind : PortBlind tickSpeed :=
  PortBlind.ite (fun _ _ => Iff.rfl) (fun _ _ => rfl) (fun _ _ => rfl)

theorem tickExit_portBlind : PortBlind tickExit :=
  PortBlind.ite (fun _ _ => Iff.rfl) (fun _ _ => rfl) (fun _ _ => rfl)

theorem tickControl_portBlind (dv : Int) : PortBlind (tickControl dv) :=
  PortBlind.ite (fun _ _ => Iff.rfl) (fun _ _ => rfl) (fun _ _ => rfl)

theorem evalDirection_portBlind (dv : Int) : PortBlind (evalDirection dv) :=
  PortBlind.ite (fun _ _ => Iff.rfl) (doDthr_portBlind (fun _ => dv) fun _ _ => rfl) (fun _ _ => rfl)

theorem tickDirection_portBlind (dv : Int) : PortBlind (tickDirection dv) :=
  PortBlind.ite (fun _ _ => Iff.rfl)
    (PortBlind.comp (f := stampDirection) (fun _ _ => rfl) (evalDirection_portBlind dv)) (fun _ _ => rfl)

/-- Sub-step 3 of R143 hands on a displacement of the tracker and the pins, so the port does not enter by it. -/
theorem tickRunning_portBlind : PortBlind tickRunning := by
  intro s p
  have hsub (dv : Int) : PortBlind fun t => tickExit (tickControl dv (tickDirection dv (tickTally (tickSpeed t)))) :=
    tickExit_portBlind.comp <| (tickControl_portBlind dv).comp <| (tickDirection_portBlind dv).comp <|
      PortBlind.comp (f := tickTally) (fun _ _ => rfl) tickSpeed_portBlind
  exact hsub _ (tickCount (tickElapsed s)) p

theorem tickReporting_portBlind : PortBlind tickReporting :=
  doneOrEnter_portBlind.comp fun _ _ => rfl

/-- The effect of an operation gated on IDLE (R86), with the port passed through. -/
theorem exec_gated_portBlind (i : Instr) (h : acceptedAlways i = false) :
    ∃ f, PortBlind f ∧ ∀ s, exec i s = whenIdle s f := by
  cases i
  case nop | tick | rdreg => cases h
  case start => exact ⟨_, doneOrEnter_portBlind.comp fun _ _ => rfl, exec_start⟩
  case dthr => exact ⟨_, doDthr_portBlind _ fun _ _ => rfl, exec_dthr⟩
  case setcmd d => exact ⟨_, fun _ _ => rfl, exec_setcmd d⟩
  case wrreg a d => exact ⟨_, fun _ _ => rfl, exec_wrreg a d⟩
  case gdec => exact ⟨_, fun _ _ => rfl, exec_gdec⟩
  case cal => exact ⟨_, fun _ _ => rfl, exec_cal⟩
  case rdisp => exact ⟨_, fun _ _ => rfl, exec_rdisp⟩
  case ptick => exact ⟨_, fun _ _ => rfl, exec_ptick⟩
  case prst => exact ⟨_, fun _ _ => rfl, exec_prst⟩
  case spdupd => exact ⟨_, fun _ _ => rfl, exec_spdupd⟩
  case dhsmp => exact ⟨_, fun _ _ => rfl, exec_dhsmp⟩
  case dhcls => exact ⟨_, fun _ _ => rfl, exec_dhcls⟩
  case drst => exact ⟨_, fun _ _ => rfl, exec_drst⟩
  case pigain => exact ⟨_, fun _ _ => rfl, exec_pigain⟩
  case pistep d => exact ⟨_, fun _ _ => rfl, exec_pistep d⟩
  case pirst => exact ⟨_, fun _ _ => rfl, exec_pirst⟩

/-- `TICK` is one of three effects, chosen by `SEQ` alone (R142). -/
theorem exec_tick_portBlind (q : Seq) :
    ∃ f, PortBlind f ∧ ∀ s, s.sequencer.seq = q → exec .tick s = .next (f s.quiet) := by
  cases q with
  | running => exact ⟨_, tickRunning_portBlind, fun _ => exec_tick_running⟩
  | reporting => exact ⟨_, tickReporting_portBlind, fun _ => exec_tick_reporting⟩
  | idle => exact ⟨id, fun _ _ => rfl, fun s hs => exec_tick_rest (by simp [hs]) (by simp [hs])⟩
  | done => exact ⟨id, fun _ _ => rfl, fun s hs => exec_tick_rest (by simp [hs]) (by simp [hs])⟩

/-- What exec does with a state is a port-blind effect on its quiet form, and which effect it is depends on `SEQ`
and, for `RDREG`, on the value read: neither on the port nor on the old outputs. -/
theorem exec_portBlind (i : Instr) (s : State) :
    ∃ f, PortBlind f ∧ ∀ t : State, t.sequencer.seq = s.sequencer.seq →
      (∀ a, readReg t a = readReg s a) → exec i t = .next (f t.quiet) := by
  cases hi : acceptedAlways i with
  | false =>
    obtain ⟨f, hf, hexec⟩ := exec_gated_portBlind i hi
    by_cases hs : s.sequencer.seq = .idle
    · exact ⟨f, hf, fun t ht _ => by rw [hexec, whenIdle_of_idle f (ht.trans hs)]⟩
    · exact ⟨id, fun _ _ => rfl, fun t ht _ => by rw [hexec, whenIdle_of_busy f (ht ▸ hs)]; rfl⟩
  | true =>
    cases i
    case nop => exact ⟨id, fun _ _ => rfl, fun t _ _ => exec_nop t⟩
    case tick =>
      obtain ⟨f, hf, hexec⟩ := exec_tick_portBlind s.sequencer.seq
      exact ⟨f, hf, fun t ht _ => hexec t ht⟩
    case rdreg a =>
      exact ⟨fun t => t.respond (readReg s a), fun _ _ => rfl, fun t _ hr => by rw [exec_rdreg, hr]; rfl⟩
    all_goals cases hi

theorem exec_withOutputs (i : Instr) (s : State) (o : Outputs) : exec i (s.withOutputs o) = exec i s := by
  obtain ⟨f, -, hexec⟩ := exec_portBlind i s
  rw [hexec (s.withOutputs o) rfl (readReg_of_outputs_port s o s.port), hexec s rfl fun _ => rfl]
  rfl

theorem exec_withPort {i : Instr} {s t : State} (h : exec i s = .next t) (p : List Arrival) :
    exec i (s.withPort p) = .next (t.withPort p) := by
  obtain ⟨f, hf, hexec⟩ := exec_portBlind i s
  rw [hexec s rfl fun _ => rfl] at h
  cases h
  rw [hexec (s.withPort p) rfl (readReg_of_outputs_port s s.outputs p)]
  exact congrArg _ (hf s.quiet p)

/-! ### A step with a word on the port -/

/-- The run of one taken word on the state that holds its sample: reset overrides, a reserved word does nothing
(R6, R84, R190). -/
def runTaken (a : Arrival) (s : State) : Host.Outcome State Fault Refusal :=
  if a.inp.rst then .next (resetCore s)
  else match decode a.word with
    | .ok i => exec i s
    | .error _ => .next s.quiet

theorem step_eq_runTaken {s : State} {a : Arrival} {rest : List Arrival} (h : s.port = a :: rest) :
    step s = runTaken a ((s.withInp a.inp).withPort rest) :=
  step_cons h

theorem step_of_port_nil {s : State} (h : s.port = []) : step s = .next s.quiet := by
  rw [step, takeArrival_nil h]
  rfl

theorem runTaken_of_rst {a : Arrival} (hrst : a.inp.rst = true) (s : State) :
    runTaken a s = .next (resetCore s) := by
  rw [runTaken, if_pos hrst]

theorem runTaken_of_decode_ok {a : Arrival} {i : Instr} (hrst : a.inp.rst = false) (hi : decode a.word = .ok i)
    (s : State) : runTaken a s = exec i s := by
  simp [runTaken, hrst, hi]

theorem runTaken_of_decode_error {a : Arrival} {e : DecodeError} (hrst : a.inp.rst = false)
    (he : decode a.word = .error e) (s : State) : runTaken a s = .next s.quiet := by
  simp [runTaken, hrst, he]

theorem runTaken_withOutputs (a : Arrival) (s : State) (o : Outputs) :
    runTaken a (s.withOutputs o) = runTaken a s := by
  cases hrst : a.inp.rst with
  | true => rw [runTaken_of_rst hrst, runTaken_of_rst hrst]; rfl
  | false =>
    cases hdec : decode a.word with
    | ok i => rw [runTaken_of_decode_ok hrst hdec, runTaken_of_decode_ok hrst hdec, exec_withOutputs]
    | error e => rw [runTaken_of_decode_error hrst hdec, runTaken_of_decode_error hrst hdec]; rfl

theorem runTaken_withPort {a : Arrival} {s t : State} (h : runTaken a s = .next t) (p : List Arrival) :
    runTaken a (s.withPort p) = .next (t.withPort p) := by
  cases hrst : a.inp.rst with
  | true =>
    rw [runTaken_of_rst hrst] at h ⊢
    cases h
    rfl
  | false =>
    cases hdec : decode a.word with
    | ok i =>
      rw [runTaken_of_decode_ok hrst hdec] at h ⊢
      exact exec_withPort h p
    | error e =>
      rw [runTaken_of_decode_error hrst hdec] at h ⊢
      cases h
      rfl

/-- Writing back the port that is there changes nothing, so a run that passes every port through keeps its own. -/
theorem runTaken_port {a : Arrival} {s t : State} (h : runTaken a s = .next t) : t.port = s.port := by
  have hback : runTaken a s = .next (t.withPort s.port) := runTaken_withPort h s.port
  rw [h] at hback
  injection hback with ht
  rw [ht]
  rfl

/-! ### Words placed by the host -/

theorem decode_encode (i : Instr) : decode (encode i) = .ok i := by
  unfold decode
  rw [opField_encode, aField_encode, dField_encode]
  cases i <;> rfl

theorem withFetchWord_encode_of_port_nil {s : State} (h : s.port = []) (i : Instr) :
    s.withFetchWord 48 (encode i).toNat =
      s.withPort [{ word := encode i, inp := { s.inp with rst := false } }] := by
  have hword : BitVec.ofNat 48 ((encode i).toNat % 2 ^ 48) = encode i := by
    rw [Nat.mod_eq_of_lt (encode i).isLt, BitVec.ofNat_toNat, BitVec.setWidth_eq]
  simp only [State.withFetchWord, h, hword]

/-! ### Arithmetic (R11) -/

theorem sat32_eq (x : Int) : sat32 x = max (-2 ^ 31) (min x (2 ^ 31 - 1)) := by
  norm_num [sat32]

theorem sat48_eq (x : Int) : sat48 x = max (-2 ^ 47) (min x (2 ^ 47 - 1)) := by
  norm_num [sat48]

theorem tdiv_eq_sign_mul (n d : Int) :
    tdiv n d = n.sign * d.sign * ((n.natAbs / d.natAbs : Nat) : Int) := by
  calc tdiv n d = (n.sign * n.natAbs).tdiv (d.sign * d.natAbs) := by
        rw [Int.sign_mul_natAbs, Int.sign_mul_natAbs, tdiv]
    _ = n.sign * d.sign * ((n.natAbs / d.natAbs : Nat) : Int) := by
        obtain hn | hn | hn := n.sign_trichotomy <;> obtain hd | hd | hd := d.sign_trichotomy <;>
          simp [hn, hd, Int.neg_tdiv, Int.tdiv_neg, Int.tdiv_eq_ediv_of_nonneg (abs_nonneg n)]

/-- `x >> 16` is the floor of `x / 65536`. -/
theorem floor16_bounds (x : Int) : floor16 x * 65536 ≤ x ∧ x < (floor16 x + 1) * 65536 := by
  unfold floor16; omega

theorem divsat_zero (n : Int) :
    divsat n 0 = if n > 0 then 2 ^ 31 - 1 else if n < 0 then -2 ^ 31 else 0 := by
  norm_num [divsat]

theorem divsat_of_ne_zero (n : Int) {d : Int} (h : d ≠ 0) :
    divsat n d = max (-2 ^ 31) (min (tdiv n d) (2 ^ 31 - 1)) := by
  rw [divsat, if_neg h, sat32_eq]

theorem clamp_of_lt {x lo hi : Int} (h : hi < lo) : clamp x lo hi = lo := by
  unfold clamp; omega

/-! ### The Gray functions (R12) -/

theorem bin2gray_gray2bin (g : BitVec 5) : bin2gray (gray2bin g) = g := by
  rw [gray2bin_eq_pinPosition]
  exact pinPosition_on_pins g

theorem gray2bin_bin2gray : ∀ b : BitVec 5, gray2bin (bin2gray b) = b := by decide

/-- The top bit passes unchanged, each lower one is the bit above it XOR the pin. -/
theorem gray2bin_bits : ∀ g : BitVec 5, (gray2bin g)[4] = g[4] ∧ (gray2bin g)[3] = ((gray2bin g)[4] ^^ g[3]) ∧
    (gray2bin g)[2] = ((gray2bin g)[3] ^^ g[2]) ∧ (gray2bin g)[1] = ((gray2bin g)[2] ^^ g[1]) ∧
    (gray2bin g)[0] = ((gray2bin g)[1] ^^ g[0]) := by
  decide

/-! ### The clock (R14, R177) -/

theorem since_toNat (x : Inputs) (t : BitVec 32) :
    ((since x t).toNat : Int) = ((x.now.toNat : Int) - t.toNat) % 2 ^ 32 := by
  have hnow := x.now.isLt
  have ht := t.isLt
  rw [since, BitVec.toNat_sub]
  omega

/-! ### The obligations -/

/-- Settles O15: the sample is overwritten by the arriving one, and no run reads the old outputs. -/
theorem stepForgetsTheOldSample : Obligations.StepForgetsTheOldSample := by
  intro s x o hport
  obtain ⟨a, rest, hs⟩ := List.exists_cons_of_ne_nil hport
  rw [step_eq_runTaken hs, step_eq_runTaken (s := { s with inp := x, outputs := o }) hs]
  exact runTaken_withOutputs a ((s.withInp a.inp).withPort rest) o

/-- Settles O16: the word at the head is taken, and its run passes the rest of the port through. -/
theorem wordsLeaveInArrivalOrder : Obligations.WordsLeaveInArrivalOrder := by
  intro s t hstep
  cases hs : s.port with
  | nil =>
    rw [step_of_port_nil hs] at hstep
    cases hstep
    exact ⟨hs, fun _ hne => absurd rfl hne⟩
  | cons a rest =>
    rw [step_eq_runTaken hs] at hstep
    have hrest : t.port = rest := runTaken_port hstep
    refine ⟨hrest, fun later _ => ?_⟩
    rw [step_eq_runTaken (s := { s with port := a :: rest ++ later }) rfl, hrest]
    exact runTaken_withPort hstep (rest ++ later)

/-- Settles O42: each bound is a power of two, each quotient a sign times a quotient of magnitudes. -/
theorem arithmeticPrimitives : Obligations.ArithmeticPrimitives := by
  intro x n d lo hi
  exact ⟨sat32_eq x, sat48_eq x, fun _ => tdiv_eq_sign_mul n d, divsat_zero n, fun hd => divsat_of_ne_zero n hd,
    floor16_bounds x, rfl, clamp_of_lt⟩

/-- Settles O9: reset is not asserted and the word decodes, which leaves one branch of the step. -/
theorem stepRunsTheDecodedCommand : Obligations.StepRunsTheDecodedCommand := by
  intro s a rest i hport hrst hi
  rw [step_eq_runTaken hport, runTaken_of_decode_ok hrst hi]
  rfl

/-- Settles O10, from O9 on the state with the encoded word placed. -/
theorem placedWordRunsNext : Obligations.PlacedWordRunsNext := by
  intro s i hport
  rw [withFetchWord_encode_of_port_nil hport]
  have hrun := stepRunsTheDecodedCommand (s.withPort [_])
    { word := encode i, inp := { s.inp with rst := false } } [] i rfl rfl (decode_encode i)
  exact hrun

/-- Settles O11: with no arrival to take, the step only quiets the outputs. -/
theorem emptyPortLeavesTheRegisters : Obligations.EmptyPortLeavesTheRegisters :=
  fun _ hport => step_of_port_nil hport

/-- Settles O24: the decoder's loop is the unrolled recurrence of R12. -/
theorem grayDecodeRoundTrips : Obligations.GrayDecodeRoundTrips :=
  fun g b => ⟨rfl, bin2gray_gray2bin g, gray2bin_bin2gray b, gray2bin_eq_pinPosition g, gray2bin_bits g⟩

/-- Settles O48: the test compares the period with the wrapped difference. -/
theorem sinceWrapsTheClock : Obligations.SinceWrapsTheClock := by
  intro x t period
  refine ⟨since_toNat x t, ?_⟩
  rw [due_iff, ← since_toNat]
  exact Int.ofNat_le.symm

end Sys2Proof.Scope
end

section
/-! PROOFS of the family 10_state: the reset state (R55), the register map (R36), which operation may move which
register (R21, R40, R56 (d)), and the invariant of the reachable states (R56). -/

namespace Sys2Proof.Registers

open Sys2Proof.Machine Sys2Proof.Scope

/-! ### What a step can do

An operation leaves the registers alone, has its effect in IDLE, or is a `TICK` inside a session (R86, R142). Every
proof about all operations starts from this split. -/

/-- The effect in IDLE of each operation gated on IDLE (R86); the operations accepted in every state move no register
there. -/
def idleEffect : Instr → State → State
  | .nop, s | .tick, s | .rdreg _, s => s
  | .start, s => doneOrEnter (s.withSequencer { s.sequencer with rep := 1 })
  | .setcmd d, s => s.withSequencer (doSetcmd (asS32 d) s.sequencer)
  | .wrreg a d, s => s.withCfg (writeReg s.cfg a d)
  | .gdec, s => s.respond (zext32 (gray2bin s.inp.g))
  | .cal, s => s.withTracker (doCal s.inp)
  | .rdisp, s => s.respond (toFx (disp s.inp.g s.tracker.ref))
  | .ptick, s => s.withCounter (doPtick s.inp s.counter)
  | .prst, s => s.withCounter doPrst
  | .spdupd, s => s.withCounter (doSpdupd s.cfg s.counter)
  | .dthr, s => doDthr (disp s.inp.g s.tracker.ref) s
  | .dhsmp, s => s.withDirection (doDhsmp s.inp s.direction)
  | .dhcls, s => s.withDirection (doDhcls s.cfg s.direction)
  | .drst, s => s.withDirection (doDrst s.inp s.cfg)
  | .pigain, s => s.withPi (doPigain s.cfg s.sequencer.cmd s.pi)
  | .pistep d, s => s.withPi (doPistep s.cfg s.sequencer.cmd.toInt (asS32 d) s.pi)
  | .pirst, s => s.withPi (doPirst s.pi)

theorem exec_eq_whenIdle_idleEffect {i : Instr} (h : acceptedAlways i = false) (s : State) :
    exec i s = whenIdle s (idleEffect i) := by
  cases i
  case nop | tick | rdreg => cases h
  all_goals rfl

/-- The sample, the outputs and the port are the model's own fields, no registers (R20). -/
theorem sameRegisters_modelFields (s : State) (x : Inputs) (o : Outputs) (p : List Arrival) :
    SameRegisters { s with inp := x, outputs := o, port := p } s :=
  ⟨rfl, rfl, rfl, rfl, rfl, rfl, rfl⟩

theorem exec_cases {i : Instr} {s t : State} (h : exec i s = .next t) :
    SameRegisters t s ∨
    (s.sequencer.seq = .idle ∧ t = idleEffect i s.quiet) ∨
    (i = .tick ∧ s.sequencer.seq = .running ∧ t = tickRunning s.quiet) ∨
    (i = .tick ∧ s.sequencer.seq = .reporting ∧ t = tickReporting s.quiet) := by
  cases hi : acceptedAlways i with
  | false =>
    rw [exec_eq_whenIdle_idleEffect hi, whenIdle_next_iff] at h
    obtain hidle | ⟨-, rfl⟩ := h
    · exact .inr (.inl hidle)
    · exact .inl (sameRegisters_modelFields s _ _ _)
  | true =>
    cases i
    case nop => cases h; exact .inl (sameRegisters_modelFields s _ _ _)
    case rdreg a => cases h; exact .inl (sameRegisters_modelFields s _ _ _)
    case tick =>
      by_cases hrun : s.sequencer.seq = .running
      · rw [exec_tick_running hrun] at h
        cases h
        exact .inr (.inr (.inl ⟨rfl, hrun, rfl⟩))
      by_cases hrep : s.sequencer.seq = .reporting
      · rw [exec_tick_reporting hrep] at h
        cases h
        exact .inr (.inr (.inr ⟨rfl, hrep, rfl⟩))
      rw [exec_tick_rest hrun hrep] at h
      cases h
      exact .inl (sameRegisters_modelFields s _ _ _)
    all_goals cases hi

/-- A step leaves the registers alone, resets them, or executes one operation on them (R6, R84, R190). -/
theorem step_cases {s t : State} (h : step s = .next t) :
    SameRegisters t s ∨ SameRegisters t State.reset ∨ ∃ i u, SameRegisters u s ∧ exec i u = .next t := by
  cases hport : s.port with
  | nil =>
    rw [step_of_port_nil hport] at h
    cases h
    exact .inl (sameRegisters_modelFields s _ _ _)
  | cons a rest =>
    rw [step_eq_runTaken hport] at h
    cases hrst : a.inp.rst with
    | true =>
      rw [runTaken_of_rst hrst] at h
      cases h
      exact .inr (.inl (sameRegisters_modelFields State.reset _ _ _))
    | false =>
      cases hdec : decode a.word with
      | ok i =>
        rw [runTaken_of_decode_ok hrst hdec] at h
        exact .inr (.inr ⟨i, (s.withInp a.inp).withPort rest, sameRegisters_modelFields s _ _ _, h⟩)
      | error e =>
        rw [runTaken_of_decode_error hrst hdec] at h
        cases h
        exact .inl (sameRegisters_modelFields s _ _ _)

theorem run_succ_next {M : Host.Core} {n : Nat} {s t : M.State} (h : M.run (n + 1) s = .next t) :
    ∃ u, M.step s = .next u ∧ M.run n u = .next t := by
  rw [Host.Core.run] at h
  split at h
  case h_1 u hu => exact ⟨u, hu, h⟩
  all_goals cases h

/-- What every step keeps, every run keeps. -/
theorem run_keeps {M : Host.Core} {P : M.State → Prop} (hstep : ∀ s t, P s → M.step s = .next t → P t) (n : Nat)
    {s t : M.State} (hs : P s) (hrun : M.run n s = .next t) : P t := by
  induction n generalizing s with
  | zero =>
    cases hrun
    exact hs
  | succ n ih =>
    obtain ⟨u, hu, hrest⟩ := run_succ_next hrun
    exact ih (hstep s u hs hu) hrest

/-! ### Trial entry and the passes of TICK -/

/-- The two ways a trial boundary goes on (R141, R147 sub-step 4). -/
theorem doneOrEnter_cases (s : State) :
    (s.cfg.maxreps.toNat < s.sequencer.rep.toNat ∧
      doneOrEnter s = s.withSequencer { s.sequencer with seq := .done }) ∨
    (s.sequencer.rep.toNat ≤ s.cfg.maxreps.toNat ∧ doneOrEnter s = enterRunning s) := by
  by_cases h : repsExhausted s = true
  · exact .inl ⟨(repsExhausted_iff s).1 h, if_pos h⟩
  · exact .inr ⟨not_lt.1 (mt (repsExhausted_iff s).2 h), if_neg h⟩

theorem doneOrEnter_cfg (s : State) : (doneOrEnter s).cfg = s.cfg := by
  obtain ⟨-, h⟩ | ⟨-, h⟩ := doneOrEnter_cases s <;> rw [h] <;> rfl

theorem doneOrEnter_tracker_or_running (s : State) :
    (doneOrEnter s).tracker = s.tracker ∨ (doneOrEnter s).sequencer.seq = .running := by
  obtain ⟨-, h⟩ | ⟨-, h⟩ := doneOrEnter_cases s <;> rw [h]
  · exact .inl rfl
  · exact .inr rfl

/-- The registers no sub-step of a control pass moves before the exit test (R143): `SEQ`, `REP`, `CMD`, `REF`, the
report and the configuration. -/
def heldInPass (s : State) : Seq × BitVec 32 × Fx × BitVec 5 × Report × Tunables :=
  (s.sequencer.seq, s.sequencer.rep, s.sequencer.cmd, s.tracker.ref, s.report, s.cfg)

theorem ref_of_heldInPass {s t : State} (h : heldInPass t = heldInPass s) : t.tracker.ref = s.tracker.ref :=
  congrArg (fun x => x.2.2.2.1) h

theorem cfg_of_heldInPass {s t : State} (h : heldInPass t = heldInPass s) : t.cfg = s.cfg :=
  congrArg (fun x => x.2.2.2.2.2) h

theorem heldInPass_doDthr (cur : Int) (s : State) : heldInPass (doDthr cur s) = heldInPass s := by
  unfold doDthr
  split <;> rfl

theorem heldInPass_tickSpeed (s : State) : heldInPass (tickSpeed s) = heldInPass s := by
  unfold tickSpeed
  split <;> rfl

theorem heldInPass_tickDirection (dv : Int) (s : State) : heldInPass (tickDirection dv s) = heldInPass s := by
  unfold tickDirection
  split
  · simp [heldInPass, stampDirection, evalDirection_frame dv s]
  · rfl

theorem heldInPass_tickControl (dv : Int) (s : State) : heldInPass (tickControl dv s) = heldInPass s := by
  unfold tickControl
  split <;> rfl

/-- `TICK` in RUNNING up to the exit test: sub-steps 1 to 7 of R143. -/
def controlPass (s : State) : State :=
  let t := tickCount (tickElapsed s)
  let dv := disp t.inp.g t.tracker.ref
  tickControl dv (tickDirection dv (tickTally (tickSpeed t)))

/-- `TICK` in RUNNING is the control pass and then the exit test, sub-step 8 of R143. -/
theorem tickRunning_eq_tickExit (s : State) : tickRunning s = tickExit (controlPass s) := rfl

theorem heldInPass_controlPass (s : State) : heldInPass (controlPass s) = heldInPass s := by
  calc heldInPass (controlPass s) = heldInPass (tickTally (tickSpeed (tickCount (tickElapsed s)))) := by
        rw [controlPass, heldInPass_tickControl, heldInPass_tickDirection]
    _ = heldInPass (tickSpeed (tickCount (tickElapsed s))) := rfl
    _ = heldInPass (tickCount (tickElapsed s)) := heldInPass_tickSpeed _
    _ = heldInPass s := rfl

/-- Only sub-step 2 of R143 counts. -/
theorem controlPass_cnt (s : State) : (controlPass s).counter.cnt = (doPtick s.inp s.counter).cnt := by
  have hcontrol (dv : Int) (u : State) : (tickControl dv u).counter = u.counter := by
    obtain ⟨-, h, -⟩ := tickControl_frame dv u
    exact h
  have hdirection (dv : Int) (u : State) : (tickDirection dv u).counter = u.counter := by
    obtain ⟨-, h, -⟩ := tickDirection_frame dv u
    exact h
  obtain ⟨-, -, -, -, -, -, -, hspeed, -⟩ := tickSpeed_frame (tickCount (tickElapsed s))
  calc (controlPass s).counter.cnt = (tickTally (tickSpeed (tickCount (tickElapsed s)))).counter.cnt := by
        rw [controlPass, hcontrol, hdirection]
    _ = (tickSpeed (tickCount (tickElapsed s))).counter.cnt := rfl
    _ = (doPtick s.inp s.counter).cnt := hspeed

theorem tickRunning_ref (s : State) : (tickRunning s).tracker.ref = s.tracker.ref := by
  have href := ref_of_heldInPass (heldInPass_controlPass s)
  rw [tickRunning_eq_tickExit]
  obtain h | h := tickExit_cases (controlPass s) <;> rw [h] <;> exact href

theorem tickRunning_cfg (s : State) : (tickRunning s).cfg = s.cfg := by
  have hcfg := cfg_of_heldInPass (heldInPass_controlPass s)
  rw [tickRunning_eq_tickExit]
  obtain h | h := tickExit_cases (controlPass s) <;> rw [h] <;> exact hcfg

theorem tickRunning_cnt (s : State) : (tickRunning s).counter.cnt = (doPtick s.inp s.counter).cnt := by
  rw [tickRunning_eq_tickExit]
  obtain h | h := tickExit_cases (controlPass s) <;> rw [h] <;> exact controlPass_cnt s

/-- R110: a sample counts at most once, and the count saturates instead of wrapping. -/
theorem doPtick_cnt_bounds (x : Inputs) (c : Counter) :
    c.cnt.toNat ≤ (doPtick x c).cnt.toNat ∧ (doPtick x c).cnt.toNat ≤ c.cnt.toNat + 1 := by
  have hcnt := c.cnt.isLt
  simp only [doPtick]
  split
  · omega
  · rw [incSat32_toNat]; omega

/-! ### Which operation moves which register (R21, R40) -/

theorem idleEffect_cfg {i : Instr} (hi : ∀ a d, i ≠ .wrreg a d) (s : State) : (idleEffect i s).cfg = s.cfg := by
  cases i with
  | wrreg a d => exact absurd rfl (hi a d)
  | start => exact doneOrEnter_cfg _
  | dthr => exact cfg_of_heldInPass (heldInPass_doDthr _ s)
  | _ => rfl

theorem idleEffect_ref {i : Instr} (hcal : i ≠ .cal) (hstart : i ≠ .start) (s : State) :
    (idleEffect i s).tracker.ref = s.tracker.ref := by
  cases i with
  | cal => exact absurd rfl hcal
  | start => exact absurd rfl hstart
  | dthr => exact ref_of_heldInPass (heldInPass_doDthr _ s)
  | _ => rfl

/-- A name outside the block 0x40 to 0x52 is read-only to the host (R41, R50). -/
theorem writeNamed_of_not_config {r : Reg} (h : ¬ (0x40 ≤ r.number.toNat ∧ r.number.toNat ≤ 0x52)) (c : Tunables)
    (d : Word) : writeNamed c r d = c := by
  cases r
  case mode | dstrat | msrc | k | kref | ki | outmin | outmax | base | thresh | hyshi | hyslo | tally0 | cpr | tctrl
      | tdir | tspd | ttrial | maxreps =>
    exact absurd (by decide) h
  all_goals rfl

theorem writeReg_of_not_config {a : RegNumber} (h : ¬ (0x40 ≤ a.toNat ∧ a.toNat ≤ 0x52)) (c : Tunables) (d : Word) :
    writeReg c a d = c := by
  cases hr : regAt a with
  | none => rw [writeReg, hr]
  | some r =>
    obtain rfl := number_of_regAt a r hr
    rw [writeReg_number, writeNamed_of_not_config h]

/-! ### The invariant, part by part (R56)

CoreInv speaks of each datapath unit by itself, and of the command, the report and the budget of a session, so each
operation has to be checked only on the part it writes. -/

/-- What the counter keeps: the last sampled count is not ahead, so the speed is not negative (R112). -/
def CounterInv (c : Counter) : Prop := c.cntlast.toNat ≤ c.cnt.toNat ∧ 0 ≤ c.spd.toInt

/-- What the report registers keep, before the first report and after each one (R32, R147). -/
def ReportInv (r : Report) : Prop :=
  OnRing r.rptAbs ∧ 0 ≤ r.rptInc.toInt ∧ r.rptDiff.toInt = sat32 (r.rptAbs.toInt - r.rptInc.toInt) ∧
    r.rptDir ≠ 3 ∧ 0 ≤ r.rptSpd.toInt ∧ r.rptRep = r.rptn

/-- The invariant of the four datapath units. -/
def DatapathInv (s : State) : Prop :=
  OnRing s.tracker.prevang ∧ CounterInv s.counter ∧ s.direction.dir ≠ 3 ∧ 0 ≤ s.pi.integ.toInt

/-- The invariant of the command, the report and the repeat budget. -/
def SessionInv (s : State) : Prop := 0 ≤ s.sequencer.cmd.toInt ∧ ReportInv s.report ∧ RepsFit s

theorem coreInv_iff (s : State) : CoreInv s ↔ DatapathInv s ∧ SessionInv s := by
  constructor
  · intro h
    exact ⟨⟨h.prevang_onRing, ⟨h.cntlast_le_cnt, h.spd_nonneg⟩, h.dir_produced, h.integ_nonneg⟩, h.cmd_nonneg,
      ⟨h.rptAbs_onRing, h.rptInc_nonneg, h.rptDiff_saturated, h.rptDir_produced, h.rptSpd_nonneg, h.rptRep_eq_rptn⟩,
      h.reps_fit⟩
  · rintro ⟨⟨hprevang, ⟨hcntlast, hspd⟩, hdir, hinteg⟩, hcmd, ⟨habs, hinc, hdiff, hrptDir, hrptSpd, hrep⟩, hreps⟩
    exact ⟨hprevang, hdir, hcmd, hcntlast, hspd, hinteg, habs, hinc, hdiff, hrptDir, hrptSpd, hrep, hreps⟩

theorem sessionInv_of_heldInPass {s t : State} (h : heldInPass t = heldInPass s) (hs : SessionInv s) :
    SessionInv t := by
  simp only [heldInPass, Prod.mk.injEq] at h
  obtain ⟨hseq, hrep, hcmd, -, hreport, hcfg⟩ := h
  simpa only [SessionInv, RepsFit, hseq, hrep, hcmd, hreport, hcfg] using hs

theorem coreInv_of_sameRegisters {s t : State} (h : SameRegisters t s) (hs : CoreInv s) : CoreInv t := by
  obtain ⟨htracker, hcounter, hdirection, hpi, hsequencer, hreport, hcfg⟩ := h
  rw [coreInv_iff] at hs ⊢
  obtain ⟨hdata, hsession⟩ := hs
  refine ⟨?_, sessionInv_of_heldInPass ?_ hsession⟩
  · simpa only [DatapathInv, htracker, hcounter, hdirection, hpi] using hdata
  · simp only [heldInPass, htracker, hsequencer, hreport, hcfg]

/-! ### The datapath units -/

theorem fx48_zero_nonneg : 0 ≤ (0 : Fx48).toInt := by decide

theorem dirStill_ne_three : dirStill ≠ 3 := by decide

theorem onRing_zero : OnRing 0 := ⟨rfl, by decide, by decide⟩

theorem counterInv_doPrst : CounterInv doPrst := ⟨le_rfl, by decide⟩

theorem counterInv_doPtick {c : Counter} (x : Inputs) (h : CounterInv c) : CounterInv (doPtick x c) :=
  ⟨h.1.trans (doPtick_cnt_bounds x c).1, h.2⟩

/-- The window's count is a difference from an earlier count, so the speed has no sign (R112). -/
theorem counterInv_doSpdupd {c : Counter} (k : Tunables) (h : CounterInv c) : CounterInv (doSpdupd k c) := by
  obtain ⟨hle, -⟩ := h
  refine ⟨le_rfl, ?_⟩
  simp only [doSpdupd, toFx_divsat_toInt]
  exact divsat_nonneg (by simp only [Config.msPerMinute, Config.fxOne]; omega) (by positivity)

theorem classify_ne_three (delta th : Int) : classify delta th ≠ 3 := by
  unfold classify
  split_ifs <;> decide

theorem doDhcls_dir_ne_three {d : Direction} (k : Tunables) (h : d.dir ≠ 3) : (doDhcls k d).dir ≠ 3 := by
  unfold doDhcls
  split_ifs
  · exact h
  · exact (by decide : dirCw ≠ 3)
  · exact (by decide : dirCcw ≠ 3)
  · exact h

/-- R131: at or above the setpoint the integral is dropped, below it the error added is positive. -/
theorem doPistep_integ_nonneg {p : Controller} (k : Tunables) (sp m : Int) (h : 0 ≤ p.integ.toInt) :
    0 ≤ (doPistep k sp m p).integ.toInt := by
  unfold doPistep
  split
  · exact fx48_zero_nonneg
  · simp only [integAfter, toFx48_sat48_toInt]
    unfold sat48 sat32
    omega

theorem datapathInv_doDthr {s : State} {cur : Int} (hcur : OnRing (toFx cur)) (h : DatapathInv s) :
    DatapathInv (doDthr cur s) := by
  have ⟨_, hcounter, _, hinteg⟩ := h
  unfold doDthr
  split
  · exact h
  · exact ⟨hcur, hcounter, classify_ne_three _ _, hinteg⟩

theorem datapathInv_doneOrEnter {s : State} (h : DatapathInv s) : DatapathInv (doneOrEnter s) := by
  obtain ⟨-, heq⟩ | ⟨-, heq⟩ := doneOrEnter_cases s <;> rw [heq]
  · exact h
  · exact ⟨onRing_zero, counterInv_doPrst, dirStill_ne_three, fx48_zero_nonneg⟩

theorem datapathInv_idleEffect {s : State} (i : Instr) (h : DatapathInv s) : DatapathInv (idleEffect i s) := by
  have ⟨hprevang, hcounter, hdir, hinteg⟩ := h
  cases i with
  | nop | tick | rdreg a | setcmd d | wrreg a d | gdec | rdisp | pigain => exact h
  | start => exact datapathInv_doneOrEnter h
  | cal => exact ⟨onRing_zero, hcounter, hdir, hinteg⟩
  | ptick => exact ⟨hprevang, counterInv_doPtick _ hcounter, hdir, hinteg⟩
  | prst => exact ⟨hprevang, counterInv_doPrst, hdir, hinteg⟩
  | spdupd => exact ⟨hprevang, counterInv_doSpdupd _ hcounter, hdir, hinteg⟩
  | dthr => exact datapathInv_doDthr (toFx_disp_onRing _ _) h
  | dhsmp => exact h
  | dhcls => exact ⟨hprevang, hcounter, doDhcls_dir_ne_three _ hdir, hinteg⟩
  | drst => exact ⟨hprevang, hcounter, dirStill_ne_three, hinteg⟩
  | pistep d => exact ⟨hprevang, hcounter, hdir, doPistep_integ_nonneg _ _ _ hinteg⟩
  | pirst => exact ⟨hprevang, hcounter, hdir, fx48_zero_nonneg⟩

theorem datapathInv_tickCount {s : State} (h : DatapathInv s) : DatapathInv (tickCount s) := by
  obtain ⟨hprevang, hcounter, hrest⟩ := h
  exact ⟨hprevang, counterInv_doPtick _ hcounter, hrest⟩

theorem datapathInv_tickSpeed {s : State} (h : DatapathInv s) : DatapathInv (tickSpeed s) := by
  have ⟨hprevang, hcounter, hrest⟩ := h
  unfold tickSpeed
  split
  · exact ⟨hprevang, counterInv_doSpdupd _ hcounter, hrest⟩
  · exact h

theorem datapathInv_evalDirection {s : State} {dv : Int} (hdv : OnRing (toFx dv)) (h : DatapathInv s) :
    DatapathInv (evalDirection dv s) := by
  have ⟨hprevang, hcounter, hdir, hinteg⟩ := h
  unfold evalDirection
  split
  · exact datapathInv_doDthr hdv h
  · exact ⟨hprevang, hcounter, doDhcls_dir_ne_three _ hdir, hinteg⟩

theorem datapathInv_tickDirection {s : State} {dv : Int} (hdv : OnRing (toFx dv)) (h : DatapathInv s) :
    DatapathInv (tickDirection dv s) := by
  unfold tickDirection
  split
  · exact datapathInv_evalDirection hdv h
  · exact h

theorem datapathInv_tickControl {s : State} (dv : Int) (h : DatapathInv s) : DatapathInv (tickControl dv s) := by
  have ⟨hprevang, hcounter, hdir, hinteg⟩ := h
  unfold tickControl
  split
  · exact ⟨hprevang, hcounter, hdir, doPistep_integ_nonneg _ _ _ hinteg⟩
  · exact h

theorem datapathInv_controlPass {s : State} (h : DatapathInv s) : DatapathInv (controlPass s) :=
  have hspeed : DatapathInv (tickSpeed (tickCount (tickElapsed s))) :=
    datapathInv_tickSpeed (datapathInv_tickCount (s := tickElapsed s) h)
  datapathInv_tickControl _ (datapathInv_tickDirection (toFx_disp_onRing _ _) (s := tickTally _) hspeed)

/-! ### The session -/

theorem repsFit_idle_iff {s : State} (h : s.sequencer.seq = .idle) :
    RepsFit s ↔ s.sequencer.rep.toNat = 1 ∧ s.report.rptn.toNat = 0 := by
  simp only [RepsFit, h]

theorem repsFit_trial_iff {s : State} (h : s.sequencer.seq = .running ∨ s.sequencer.seq = .reporting) :
    RepsFit s ↔ s.sequencer.rep.toNat ≤ s.cfg.maxreps.toNat ∧
      s.report.rptn.toNat + 1 = s.sequencer.rep.toNat := by
  obtain h | h := h <;> simp only [RepsFit, h]

theorem repsFit_done_iff {s : State} (h : s.sequencer.seq = .done) :
    RepsFit s ↔ s.sequencer.rep.toNat = s.cfg.maxreps.toNat + 1 ∧ s.report.rptn.toNat = s.cfg.maxreps.toNat := by
  simp only [RepsFit, h]

theorem rptn_le_maxreps {s : State} (h : RepsFit s) : s.report.rptn.toNat ≤ s.cfg.maxreps.toNat := by
  unfold RepsFit at h
  split at h <;> omega

/-- A trial boundary respects the budget: `REP` is one ahead of the reports made, and at most one past the budget. -/
theorem sessionInv_doneOrEnter {s : State} (hcmd : 0 ≤ s.sequencer.cmd.toInt) (hreport : ReportInv s.report)
    (hrptn : s.report.rptn.toNat + 1 = s.sequencer.rep.toNat)
    (hrep : s.sequencer.rep.toNat ≤ s.cfg.maxreps.toNat + 1) : SessionInv (doneOrEnter s) := by
  obtain ⟨hlt, heq⟩ | ⟨hle, heq⟩ := doneOrEnter_cases s <;> rw [heq] <;> refine ⟨hcmd, hreport, ?_⟩
  · refine (repsFit_done_iff rfl).2 ?_
    simp only [State.withSequencer_sequencer, State.withSequencer_cfg, State.withSequencer_report]
    omega
  · exact (repsFit_trial_iff (.inl rfl)).2 ⟨hle, hrptn⟩

/-- `SETCMD` keeps a magnitude; that of the least number saturates (R140). -/
theorem doSetcmd_cmd_nonneg (d : Word) (q : Sequencer) : 0 ≤ (doSetcmd (asS32 d) q).cmd.toInt := by
  have hd : -2147483648 ≤ asS32 d ∧ asS32 d ≤ 2147483647 := fx_range d
  simp only [doSetcmd]
  split
  · rw [toFx_sat32_toInt, sat32]
    omega
  · rw [toFx_toInt hd.1 hd.2]
    omega

/-- In IDLE the budget may still be configured: RepsFit asks nothing of `MAXREPS` there. -/
theorem sessionInv_idleEffect {s : State} (i : Instr) (hseq : s.sequencer.seq = .idle) (h : SessionInv s) :
    SessionInv (idleEffect i s) := by
  have ⟨hcmd, hreport, hreps⟩ := h
  have hfit := (repsFit_idle_iff hseq).1 hreps
  cases i with
  | start =>
    refine sessionInv_doneOrEnter hcmd hreport ?_ ?_
    · exact congrArg (· + 1) hfit.2
    · exact Nat.le_add_left 1 s.cfg.maxreps.toNat
  | setcmd d => exact ⟨doSetcmd_cmd_nonneg d _, hreport, hreps⟩
  | wrreg a d => exact ⟨hcmd, hreport, (repsFit_idle_iff (s := s.withCfg (writeReg s.cfg a d)) hseq).2 hfit⟩
  | dthr => exact sessionInv_of_heldInPass (heldInPass_doDthr _ s) h
  | _ => exact h

/-- The exit test starts the reporting of the trial that ran, with the same rep index (R143 sub-step 8). -/
theorem sessionInv_tickExit {s : State} (hseq : s.sequencer.seq = .running) (h : SessionInv s) :
    SessionInv (tickExit s) := by
  have ⟨hcmd, hreport, hreps⟩ := h
  obtain heq | heq := tickExit_cases s <;> rw [heq]
  · exact h
  · exact ⟨hcmd, hreport, (repsFit_trial_iff (.inr rfl)).2 ((repsFit_trial_iff (.inl hseq)).1 hreps)⟩

/-- The report made at a trial's end is consistent (R147 sub-step 1). -/
theorem reportInv_makeReport {s : State} (hdata : DatapathInv s)
    (hrptn : s.report.rptn.toNat + 1 = s.sequencer.rep.toNat) : ReportInv (makeReport s) := by
  obtain ⟨-, ⟨-, hspd⟩, hdir, -⟩ := hdata
  refine ⟨toFx_disp_onRing _ _, ?_, ?_, hdir, hspd, ?_⟩
  · simpa only [makeReport, toFx_cntDeg_toInt] using cntDeg_nonneg s.cfg s.counter
  · simp only [makeReport, toFx_sat32_toInt, toFx_disp_toInt, toFx_cntDeg_toInt]
    rw [disp_eq_ringDegrees]
  · have hrep := s.sequencer.rep.isLt
    refine BitVec.eq_of_toNat_eq ?_
    simp only [makeReport, incSat32_toNat]
    omega

/-- `TICK` in RUNNING: the control pass holds what the session needs, and the exit test moves `SEQ` alone (R143). -/
theorem coreInv_tickRunning {s : State} (hseq : s.sequencer.seq = .running) (h : CoreInv s) :
    CoreInv (tickRunning s) := by
  rw [coreInv_iff] at h ⊢
  obtain ⟨hdata, hsession⟩ := h
  have hheld := heldInPass_controlPass s
  have hseq' : (controlPass s).sequencer.seq = .running := (congrArg Prod.fst hheld).trans hseq
  rw [tickRunning_eq_tickExit]
  refine ⟨?_, sessionInv_tickExit hseq' (sessionInv_of_heldInPass hheld hsession)⟩
  obtain heq | heq := tickExit_cases (controlPass s) <;> rw [heq] <;> exact datapathInv_controlPass hdata

/-- `TICK` in REPORTING goes through a trial boundary with the report made and `REP` counted (R147). -/
theorem coreInv_tickReporting {s : State} (hseq : s.sequencer.seq = .reporting) (h : CoreInv s) :
    CoreInv (tickReporting s) := by
  rw [coreInv_iff] at h ⊢
  obtain ⟨hdata, hcmd, -, hreps⟩ := h
  obtain ⟨hle, hrptn⟩ := (repsFit_trial_iff (.inr hseq)).1 hreps
  have hmaxreps := s.cfg.maxreps.isLt
  have hrptn' : (incSat32 s.report.rptn).toNat + 1 = (incSat32 s.sequencer.rep).toNat := by
    simp only [incSat32_toNat]; omega
  have hrep' : (incSat32 s.sequencer.rep).toNat ≤ s.cfg.maxreps.toNat + 1 := by
    simp only [incSat32_toNat]; omega
  have ⟨hprevang, _⟩ := hdata
  refine ⟨datapathInv_doneOrEnter ?_,
    sessionInv_doneOrEnter hcmd (reportInv_makeReport hdata hrptn) hrptn' hrep'⟩
  exact ⟨hprevang, counterInv_doPrst, dirStill_ne_three, fx48_zero_nonneg⟩

theorem coreInv_reset : CoreInv State.reset := by
  rw [coreInv_iff]
  exact ⟨⟨onRing_zero, counterInv_doPrst, by decide, by decide⟩, by decide,
    ⟨onRing_zero, by decide, by decide, by decide, by decide, rfl⟩, rfl, rfl⟩

theorem coreInv_exec {i : Instr} {s t : State} (hs : CoreInv s) (h : exec i s = .next t) : CoreInv t := by
  have hquiet : CoreInv s.quiet := coreInv_of_sameRegisters (sameRegisters_modelFields s _ _ _) hs
  obtain hsame | ⟨hseq, rfl⟩ | ⟨-, hseq, rfl⟩ | ⟨-, hseq, rfl⟩ := exec_cases h
  · exact coreInv_of_sameRegisters hsame hs
  · obtain ⟨hdata, hsession⟩ := (coreInv_iff _).1 hquiet
    exact (coreInv_iff _).2 ⟨datapathInv_idleEffect i hdata, sessionInv_idleEffect i hseq hsession⟩
  · exact coreInv_tickRunning hseq hquiet
  · exact coreInv_tickReporting hseq hquiet

/-- R134: the motor is driven in RUNNING alone. -/
theorem duty_of_not_running {s : State} (h : s.sequencer.seq ≠ .running) : duty s = 0 := by
  cases hseq : s.sequencer.seq with
  | running => exact absurd hseq h
  | idle | reporting | done => simp only [duty, hseq]

/-! ### The register map as an injection (R36) -/

theorem zext32_injective {w : Nat} {u v : BitVec w} (h : zext32 u = zext32 v) (hw : w ≤ 32 := by decide) : u = v := by
  refine BitVec.eq_of_toNat_eq ?_
  rw [← zext32_toNat u hw, ← zext32_toNat v hw, h]

theorem seqCode_injective {p q : Seq} (h : seqCode p = seqCode q) : p = q := by
  revert h
  cases p <;> cases q <;> decide

theorem fx48_toInt_eq (v : Fx48) : v.toNat < 281474976710656 ∧
    v.toInt = if v.toNat < 140737488355328 then (v.toNat : Int) else v.toNat - 281474976710656 := by
  have hv := v.isLt
  rw [BitVec.toInt_eq_toNat_cond]
  split_ifs <;> omega

/-- The two views of `INTEG` hold all its bits (R50). -/
theorem integ_eq_of_views {u v : Fx48} (hlow : integLow u = integLow v) (hhigh : integHigh u = integHigh v) :
    u = v := by
  have hlow' := congrArg BitVec.toNat hlow
  have hhigh' := congrArg BitVec.toNat hhigh
  rw [integLow_toNat, integLow_toNat] at hlow'
  rw [integHigh_toNat, integHigh_toNat] at hhigh'
  have hu := fx48_toInt_eq u
  have hv := fx48_toInt_eq v
  refine BitVec.eq_of_toNat_eq ?_
  omega

theorem readNamed_eq_of_readReg_eq {s t : State} (h : ∀ a : RegNumber, readReg s a = readReg t a) (r : Reg) :
    readNamed s r = readNamed t r := by
  simpa only [readReg_number] using h r.number

section
variable {s t : State} (h : ∀ r, readNamed s r = readNamed t r)
include h

theorem tracker_eq_of_reads : s.tracker = t.tracker :=
  Eq.mpr (Tracker.mk.injEq ..) ⟨zext32_injective (h .ref), h .prevang⟩

theorem counter_eq_of_reads : s.counter = t.counter :=
  Eq.mpr (Counter.mk.injEq ..) ⟨h .cnt, zext32_injective (h .tog), zext32_injective (h .chl), h .cntlast,
    h .spd⟩

theorem direction_eq_of_reads : s.direction = t.direction :=
  Eq.mpr (Direction.mk.injEq ..) ⟨zext32_injective (h .dir), zext32_injective (h .tally),
    zext32_injective (h .pch2)⟩

theorem pi_eq_of_reads : s.pi = t.pi :=
  Eq.mpr (Controller.mk.injEq ..) ⟨h .err, integ_eq_of_views (h .integl) (h .integh), h .out, h .kp⟩

theorem sequencer_eq_of_reads : s.sequencer = t.sequencer :=
  Eq.mpr (Sequencer.mk.injEq ..) ⟨seqCode_injective (zext32_injective (h .seq)), h .rep, h .tstart, h .elapsed,
    h .tlastpi, h .tlastdir, h .tlastspd, zext32_injective (h .rev), h .cmd⟩

theorem report_eq_of_reads : s.report = t.report :=
  Eq.mpr (Report.mk.injEq ..) ⟨h .rptAbs, h .rptInc, h .rptDiff, zext32_injective (h .rptDir), h .rptSpd,
    h .rptRep, h .rptn⟩

theorem cfg_eq_of_reads : s.cfg = t.cfg :=
  Eq.mpr (Tunables.mk.injEq ..) ⟨zext32_injective (h .mode), zext32_injective (h .dstrat),
    zext32_injective (h .msrc), h .k, h .kref, h .ki, h .outmin, h .outmax, h .base, h .thresh,
    zext32_injective (h .hyshi), zext32_injective (h .hyslo), zext32_injective (h .tally0),
    zext32_injective (h .cpr), h .tctrl, h .tdir, h .tspd, h .ttrial, zext32_injective (h .maxreps)⟩

end

/-! ### The obligations -/

/-- Settles O57: a step keeps the registers, resets them or executes one operation, and each keeps CoreInv. -/
theorem everyStepKeepsTheInvariant : Obligations.EveryStepKeepsTheInvariant := by
  intro s t hs hstep
  obtain hsame | hreset | ⟨i, u, hsame, hexec⟩ := step_cases hstep
  · exact coreInv_of_sameRegisters hsame hs
  · exact coreInv_of_sameRegisters hreset coreInv_reset
  · exact coreInv_exec (coreInv_of_sameRegisters hsame hs) hexec

/-- Settles O58: CoreInv holds after every run, and its RepsFit is the budget. -/
theorem everyRunRespectsTheRepBudget : Obligations.EveryRunRespectsTheRepBudget := by
  intro n arrivals t hrun
  have hstart : CoreInv { State.reset with port := arrivals } :=
    coreInv_of_sameRegisters (sameRegisters_modelFields State.reset _ _ arrivals) coreInv_reset
  have hreps : RepsFit t :=
    (run_keeps (M := Sys2Proof.core) (P := CoreInv) everyStepKeepsTheInvariant n hstart hrun).reps_fit
  refine ⟨duty_of_not_running, fun hseq => ?_, fun hseq => ?_, rptn_le_maxreps hreps⟩
  · obtain ⟨hle, hrptn⟩ := (repsFit_trial_iff (.inl hseq)).1 hreps
    omega
  · exact ((repsFit_done_iff hseq).1 hreps).1

/-- Settles O22: each register is read at a number of its own, by an injective view. -/
theorem registerMapHidesNothing : Obligations.RegisterMapHidesNothing := by
  intro s t _ hread
  have h := readNamed_eq_of_readReg_eq hread
  exact ⟨tracker_eq_of_reads h, counter_eq_of_reads h, direction_eq_of_reads h, pi_eq_of_reads h,
    sequencer_eq_of_reads h, report_eq_of_reads h, cfg_eq_of_reads h⟩

/-- Settles O23: of the effects in IDLE only WRREG writes the configuration, and a trial keeps it. -/
theorem onlyWrregInIdleConfigures : Obligations.OnlyWrregInIdleConfigures := by
  intro i s t h hne
  obtain ⟨-, -, -, -, -, -, hcfg⟩ | ⟨hseq, rfl⟩ | ⟨-, -, rfl⟩ | ⟨-, -, rfl⟩ := exec_cases h
  · exact absurd hcfg hne
  · refine ⟨hseq, ?_⟩
    by_cases hi : ∃ a d, i = .wrreg a d
    · obtain ⟨a, d, rfl⟩ := hi
      refine ⟨a, d, rfl, ?_⟩
      by_contra ha
      exact hne (writeReg_of_not_config ha s.cfg d)
    · push Not at hi
      exact absurd (idleEffect_cfg hi s.quiet) hne
  · exact absurd (tickRunning_cfg s.quiet) hne
  · exact absurd (doneOrEnter_cfg _) hne

/-- Settles O29: START and the TICK of REPORTING change the reference only by entering a trial. -/
theorem referenceFixedInsideATrial : Obligations.ReferenceFixedInsideATrial := by
  intro i s t h hne
  obtain ⟨htracker, -⟩ | ⟨hseq, rfl⟩ | ⟨-, -, rfl⟩ | ⟨hi, hseq, rfl⟩ := exec_cases h
  · exact absurd (congrArg Tracker.ref htracker) hne
  · by_cases hcal : i = .cal
    · exact .inl ⟨hcal, hseq⟩
    by_cases hstart : i = .start
    · subst hstart
      obtain hkept | hrun := doneOrEnter_tracker_or_running
        (s.quiet.withSequencer { s.quiet.sequencer with rep := 1 })
      · exact absurd (congrArg Tracker.ref hkept) hne
      · exact .inr (.inl ⟨rfl, hseq, hrun⟩)
    exact absurd (idleEffect_ref hcal hstart s.quiet) hne
  · exact absurd (tickRunning_ref s.quiet) hne
  · obtain hkept | hrun := doneOrEnter_tracker_or_running _
    · exact absurd (congrArg Tracker.ref hkept) hne
    · exact .inr (.inr ⟨hi, hseq, hrun⟩)

/-- Settles O34: in RUNNING only TICK counts, once, by its PTICK. -/
theorem countNeverFallsWithinATrial : Obligations.CountNeverFallsWithinATrial := by
  intro i s t hrun h
  obtain ⟨-, hcounter, -⟩ | ⟨hseq, -⟩ | ⟨-, -, rfl⟩ | ⟨-, hseq, -⟩ := exec_cases h
  · rw [hcounter]
    omega
  · exact absurd (hrun.symm.trans hseq) (by decide)
  · rw [tickRunning_cnt]
    exact doPtick_cnt_bounds s.inp s.counter
  · exact absurd (hrun.symm.trans hseq) (by decide)

/-- Settles O13: the register space is finite and the reset state fixed, so all 256 reads are evaluated. -/
theorem resetStateReads : Obligations.ResetStateReads := by
  unfold Obligations.ResetStateReads
  decide

/-- Settles O56, the base case of O58. -/
theorem resetMeetsTheInvariant : Obligations.ResetMeetsTheInvariant := coreInv_reset

end Sys2Proof.Registers
end

section
/-! PROOFS of the family 20_memory: reads of the register space change nothing, writes are idempotent (R63). -/

namespace Sys2Proof.Memory

open Sys2Proof.Machine Sys2Proof.Scope Sys2Proof.Registers

/-- A configuration register takes its content from the operand alone, and every other name keeps the
configuration (R50, R162). -/
theorem writeNamed_idem (c : Tunables) (r : Reg) (d : Word) :
    writeNamed (writeNamed c r d) r d = writeNamed c r d := by
  cases r <;> rfl

theorem writeReg_idem (c : Tunables) (a : RegNumber) (d : Word) :
    writeReg (writeReg c a d) a d = writeReg c a d := by
  cases ha : regAt a with
  | none => simp only [writeReg, ha]
  | some r => simpa only [writeReg, ha] using writeNamed_idem c r d

/-- `RDREG` changes the outputs only, which no operation reads (R161): whatever comes next runs as it would have. -/
theorem exec_after_rdreg {a : RegNumber} {s t : State} (h : exec (.rdreg a) s = .next t) (i : Instr) :
    exec i t = exec i s := by
  rw [exec_rdreg] at h
  cases h
  exact exec_withOutputs i s _

theorem sameRegisters_of_rdreg {a : RegNumber} {s t : State} (h : exec (.rdreg a) s = .next t) :
    SameRegisters t s := by
  rw [exec_rdreg] at h
  cases h
  exact sameRegisters_modelFields s _ _ _

/-- In IDLE a repeated `WRREG` writes the configuration it finds; elsewhere both are ignored (R86, R162). -/
theorem exec_wrreg_idem {a : RegNumber} {d : Word} {s t : State} (h : exec (.wrreg a d) s = .next t) :
    exec (.wrreg a d) t = .next t := by
  obtain ⟨hidle, rfl⟩ | ⟨-, rfl⟩ := whenIdle_next_iff.1 ((exec_wrreg a d s).symm.trans h)
  · rw [exec_wrreg]
    refine whenIdle_next_iff.2 (.inl ⟨hidle, ?_⟩)
    exact congrArg s.quiet.withCfg (writeReg_idem s.cfg a d).symm
  · exact (exec_withOutputs (.wrreg a d) s Outputs.none).trans h

/-! ### The obligation -/

/-- Settles O21: a read moves only the outputs, and a write stores what the operand alone determines. -/
theorem readsAreHarmlessWritesIdempotent : Obligations.ReadsAreHarmlessWritesIdempotent :=
  ⟨fun _ b _ _ h => ⟨sameRegisters_of_rdreg h, exec_after_rdreg h (.rdreg b)⟩,
    fun _ _ _ _ h => exec_wrreg_idem h⟩

end Sys2Proof.Memory
end

section
/-! PROOFS of the family 30_encoding: decoding and encoding of command words (R80 to R85), and the assembler's lines
and operands (R87, R88).

A word and a source line meet in the mnemonic: the decoder looks the mnemonic up by `op` and gives it the word's
fields, the assembler gives it the written operands, and both mean `Mnemonic.withFields`. -/

namespace Sys2Proof.Encoding

open Sys2Proof.Machine Sys2Proof.Scope

/-! ### A mnemonic with its fields -/

/-- The opcode of a mnemonic (the table of R83). -/
def opcodeOf (m : Mnemonic) : BitVec 8 := (m.withFields 0 0).opcode

/-- The mnemonic an instruction is written with (the table of R83). -/
def mnemonicOf : Instr → Mnemonic
  | .nop => .nop
  | .tick => .tick
  | .start => .start
  | .setcmd _ => .setcmd
  | .rdreg _ => .rdreg
  | .wrreg _ _ => .wrreg
  | .gdec => .gdec
  | .cal => .cal
  | .rdisp => .rdisp
  | .ptick => .ptick
  | .prst => .prst
  | .spdupd => .spdupd
  | .dthr => .dthr
  | .dhsmp => .dhsmp
  | .dhcls => .dhcls
  | .drst => .drst
  | .pigain => .pigain
  | .pistep _ => .pistep
  | .pirst => .pirst

theorem opcodeOf_mnemonicOf (i : Instr) : opcodeOf (mnemonicOf i) = i.opcode := by
  cases i <;> rfl

theorem format_withFields (m : Mnemonic) (a : RegNumber) (d : Word) : (m.withFields a d).format = m.format := by
  cases m <;> rfl

theorem aOperand_withFields {m : Mnemonic} (h : m.format = .a ∨ m.format = .ad) (a : RegNumber) (d : Word) :
    (m.withFields a d).aOperand = a := by
  cases m
  case rdreg | wrreg => rfl
  all_goals simp [Mnemonic.format] at h

theorem dOperand_withFields {m : Mnemonic} (h : m.format = .d ∨ m.format = .ad) (a : RegNumber) (d : Word) :
    (m.withFields a d).dOperand = d := by
  cases m
  case setcmd | wrreg | pistep => rfl
  all_goals simp [Mnemonic.format] at h

/-- Only the fields that the format uses matter (R82). -/
theorem withFields_congr {m : Mnemonic} {a b : RegNumber} {d e : Word}
    (ha : m.format = .a ∨ m.format = .ad → a = b) (hd : m.format = .d ∨ m.format = .ad → d = e) :
    m.withFields a d = m.withFields b e := by
  cases m
  case rdreg => rw [ha (.inl rfl)]; rfl
  case wrreg => rw [ha (.inr rfl), hd (.inr rfl)]
  case setcmd | pistep => rw [hd (.inl rfl)]; rfl
  all_goals rfl

theorem aOperand_of_unused {i : Instr} (h : i.format = .z ∨ i.format = .d) : i.aOperand = 0 := by
  cases i
  case rdreg | wrreg => simp [Instr.format] at h
  all_goals rfl

theorem dOperand_of_unused {i : Instr} (h : i.format = .z ∨ i.format = .a) : i.dOperand = 0 := by
  cases i
  case setcmd | wrreg | pistep => simp [Instr.format] at h
  all_goals rfl

/-! ### The fields of a word (R80, R82) -/

theorem encode_unused_a {i : Instr} (h : i.format = .z ∨ i.format = .d) :
    (encode i).extractLsb' 32 8 = 0#8 :=
  (aField_encode i).trans (aOperand_of_unused h)

theorem encode_unused_d {i : Instr} (h : i.format = .z ∨ i.format = .a) :
    (encode i).extractLsb' 0 32 = 0#32 :=
  (dField_encode i).trans (dOperand_of_unused h)

/-- The mask of R83 keeps `op` whole. -/
theorem opField_and_mask (w : CommandWord) : opField (w &&& 0xFF0000000000#48) = opField w := by
  have hmask : (0xFF0000000000#48).extractLsb' 40 8 = BitVec.allOnes 8 := rfl
  rw [opField, opField, BitVec.extractLsb'_and, hmask, BitVec.and_allOnes]

/-! ### The decoder (R83, R84) -/

theorem decode_of_opcode {w : CommandWord} {m : Mnemonic} (h : opField w = opcodeOf m) :
    decode w = .ok (m.withFields (aField w) (dField w)) := by
  rw [decode, h]
  cases m <;> rfl

/-- The decoder answers with the mnemonic that has the word's opcode, on the word's fields. -/
theorem decode_eq_ok_iff {w : CommandWord} {i : Instr} :
    decode w = .ok i ↔ ∃ m, opField w = opcodeOf m ∧ i = m.withFields (aField w) (dField w) := by
  constructor
  · intro h
    have hop : opField w = opcodeOf (mnemonicOf i) := by rw [opcodeOf_mnemonicOf, opcode_of_decode h]
    refine ⟨mnemonicOf i, hop, ?_⟩
    rw [decode_of_opcode hop] at h
    exact (Except.ok.inj h).symm
  · rintro ⟨m, hop, rfl⟩
    exact decode_of_opcode hop

/-- A row of the opcode map, by its match under the mask (R83). -/
theorem decode_of_match {w row : CommandWord} (m : Mnemonic) (hrow : opField row = opcodeOf m)
    (h : w &&& 0xFF0000000000#48 = row) : decode w = .ok (m.withFields (aField w) (dField w)) :=
  decode_of_opcode (by rw [← opField_and_mask, h, hrow])

theorem decode_ne_ok_iff {w : CommandWord} :
    (∀ i : Instr, decode w ≠ .ok i) ↔ ∀ m, opcodeOf m ≠ opField w := by
  constructor
  · intro h m hm
    exact h _ (decode_of_opcode hm.symm)
  · intro h i hi
    obtain ⟨m, hop, -⟩ := decode_eq_ok_iff.1 hi
    exact h m hop.symm

/-- The values of `op` that R84 lists as reserved. -/
def ReservedOp (op : Nat) : Prop :=
  0x06 ≤ op ∧ op ≤ 0x0F ∨ 0x13 ≤ op ∧ op ≤ 0x1F ∨ 0x23 ≤ op ∧ op ≤ 0x2F ∨ 0x34 ≤ op ∧ op ≤ 0x3F ∨
    0x43 ≤ op ∧ op ≤ 0xFF

/-- All mnemonics, in the order of the table of R83. -/
def mnemonics : List Mnemonic :=
  [.nop, .tick, .start, .setcmd, .rdreg, .wrreg, .gdec, .cal, .rdisp, .ptick, .prst, .spdupd,
    .dthr, .dhsmp, .dhcls, .drst, .pigain, .pistep, .pirst]

theorem mem_mnemonics (m : Mnemonic) : m ∈ mnemonics := by
  cases m <;> decide

theorem opcodes_eq : mnemonics.map (fun m => (opcodeOf m).toNat) =
    [0x00, 0x01, 0x02, 0x03, 0x04, 0x05, 0x10, 0x11, 0x12, 0x20, 0x21, 0x22, 0x30, 0x31, 0x32, 0x33,
      0x40, 0x41, 0x42] := rfl

theorem mem_opcodes_iff (op : BitVec 8) :
    op.toNat ∈ mnemonics.map (fun m => (opcodeOf m).toNat) ↔ ∃ m, opcodeOf m = op := by
  simp [mem_mnemonics, BitVec.toNat_inj]

/-- The reserved ranges and the opcodes of R83 partition the values of `op`. -/
theorem reservedOp_iff (op : BitVec 8) : ReservedOp op.toNat ↔ ∀ m, opcodeOf m ≠ op := by
  have hlt := op.isLt
  rw [← not_exists, ← mem_opcodes_iff, opcodes_eq]
  simp only [ReservedOp, List.mem_cons, List.not_mem_nil, or_false]
  omega

theorem step_of_reserved {w : CommandWord} (hw : ∀ i : Instr, decode w ≠ .ok i) {s : State} {x : Inputs}
    {rest : List Arrival} (hrst : x.rst = false) (hport : s.port = { word := w, inp := x } :: rest) :
    step s = .next ((s.withInp x).withPort rest).quiet := by
  cases hdec : decode w with
  | ok i => exact absurd hdec (hw i)
  | error e =>
    rw [step_eq_runTaken hport]
    exact runTaken_of_decode_error (a := { word := w, inp := x }) hrst hdec _

/-! ### The assembler (R87) -/

theorem assemble_of_wellFormed {l : AsmLine} (h : l.wellFormed = true) :
    l.assemble =
      some (l.mnemonic.withFields ((l.reg.map AsmReg.bits).getD 0) ((l.value.map AsmValue.bits).getD 0)) :=
  if_pos h

theorem assemble_of_illFormed {l : AsmLine} (h : l.wellFormed = false) : l.assemble = none :=
  if_neg (by simp [h])

/-- A line writes a register operand only where its format has one. -/
theorem format_of_reg {l : AsmLine} {r : AsmReg} (h : l.wellFormed = true) (hr : l.reg = some r) :
    l.mnemonic.format = .a ∨ l.mnemonic.format = .ad := by
  cases hf : l.mnemonic.format with
  | a => exact .inl rfl
  | ad => exact .inr rfl
  | z | d => simp [AsmLine.wellFormed, hf, hr] at h

/-- A line writes a value operand only where its format has one. -/
theorem format_of_value {l : AsmLine} {v : AsmValue} (h : l.wellFormed = true) (hv : l.value = some v) :
    l.mnemonic.format = .d ∨ l.mnemonic.format = .ad := by
  cases hf : l.mnemonic.format with
  | d => exact .inl rfl
  | ad => exact .inr rfl
  | z | a => cases hr : l.reg <;> simp [AsmLine.wellFormed, hf, hr, hv] at h

/-! ### The values of operands (R87) -/

theorem pattern_toNat {n : Nat} (h : n < 4294967296) : (AsmValue.pattern n).bits.toNat = n :=
  (BitVec.toNat_ofNat n 32).trans (Nat.mod_eq_of_lt h)

/-- A decimal integer below 2^31 is read back as a signed one. -/
theorem integer_toInt {z : Int} (lo : -2147483648 ≤ z) (hi : z ≤ 2147483647) :
    (AsmValue.integer z).bits.toInt = z :=
  toFx_toInt lo hi

/-- From 2^31 up it is read back as an unsigned one (log entry 17). -/
theorem integer_toNat {z : Int} (lo : 0 ≤ z) (hi : z < 4294967296) : ((AsmValue.integer z).bits.toNat : Int) = z := by
  rw [AsmValue.bits, BitVec.toNat_ofInt]
  omega

/-- `q × 65536` is an integer in s32 range, so the division is exact and nothing is lost in the register (R10). -/
theorem fx_toInt_mul {digits : Int} {places : Nat} (hdvd : digits * 65536 % 10 ^ places = 0)
    (lo : -2147483648 ≤ digits * 65536 / 10 ^ places) (hi : digits * 65536 / 10 ^ places ≤ 2147483647) :
    (AsmValue.fx digits places).bits.toInt * 10 ^ places = digits * 65536 := by
  have hraw : (AsmValue.fx digits places).bits.toInt = digits * 65536 / 10 ^ places := toFx_toInt lo hi
  rw [hraw]
  exact Int.ediv_mul_cancel_of_emod_eq_zero hdvd

theorem regNumber_toNat {n : Nat} (h : n < 256) : (AsmReg.number n).bits.toNat = n :=
  (BitVec.toNat_ofNat n 8).trans (Nat.mod_eq_of_lt h)

/-! ### The obligations -/

/-- Settles O1: the three fields of the encoded word are the operation's own. -/
theorem decodeOfEncodeIsTheInstruction : Obligations.DecodeOfEncodeIsTheInstruction :=
  fun i => ⟨decode_encode i, opField_encode i, encode_unused_a, encode_unused_d⟩

/-- Settles O2: the second word has the same mnemonic, on fields that agree where its format looks. -/
theorem unusedFieldsAreIgnored : Obligations.UnusedFieldsAreIgnored := by
  refine ⟨fun w v i hw hop ha hd => ?_, fun i => ⟨encode_unused_a, encode_unused_d⟩⟩
  obtain ⟨m, hm, rfl⟩ := decode_eq_ok_iff.1 hw
  rw [format_withFields] at ha hd
  refine decode_eq_ok_iff.2 ⟨m, hop.trans hm, ?_⟩
  exact withFields_congr (fun h => (ha h).symm) (fun h => (hd h).symm)

/-- Settles O3: the match of each row has its mnemonic's opcode in `op`. -/
theorem opcodeMapRowByRow : Obligations.OpcodeMapRowByRow :=
  fun _ => ⟨decode_of_match .nop rfl, decode_of_match .tick rfl, decode_of_match .start rfl,
    decode_of_match .setcmd rfl, decode_of_match .rdreg rfl, decode_of_match .wrreg rfl,
    decode_of_match .gdec rfl, decode_of_match .cal rfl, decode_of_match .rdisp rfl,
    decode_of_match .ptick rfl, decode_of_match .prst rfl, decode_of_match .spdupd rfl,
    decode_of_match .dthr rfl, decode_of_match .dhsmp rfl, decode_of_match .dhcls rfl, decode_of_match .drst rfl,
    decode_of_match .pigain rfl, decode_of_match .pistep rfl, decode_of_match .pirst rfl⟩

/-- Settles O5: the listed values are the ones no mnemonic has, and such a word only quiets the outputs. -/
theorem reservedWordsHaveNoEffect : Obligations.ReservedWordsHaveNoEffect := by
  rintro w op rfl
  exact ⟨(reservedOp_iff (opField w)).trans decode_ne_ok_iff.symm,
    fun hw _ _ _ hrst hport => step_of_reserved hw hrst hport⟩

/-- Settles O7: a line has an operand exactly where its format has the field that the encoder writes it to. -/
theorem assembledLinesCarryTheirOperands : Obligations.AssembledLinesCarryTheirOperands := by
  refine ⟨fun l hl => ?_, fun _ => assemble_of_illFormed⟩
  refine ⟨_, assemble_of_wellFormed hl, format_withFields _ _ _, decode_encode _, fun r hr => ?_, fun v hv => ?_⟩
  · have ha := aOperand_withFields (format_of_reg hl hr) r.bits ((l.value.map AsmValue.bits).getD 0)
    rw [hr]
    exact (aField_encode _).trans ha
  · have hd := dOperand_withFields (format_of_value hl hv) ((l.reg.map AsmReg.bits).getD 0) v.bits
    rw [hv]
    exact (dField_encode _).trans hd

/-- Settles O8: a well-formed operand lies in the range that its pattern represents. -/
theorem assembledValuesStandForTheirText : Obligations.AssembledValuesStandForTheirText := by
  refine ⟨fun n h => ?_, fun z h => ?_, fun digits places h => ?_, fun n h => ?_, regAt_number⟩
  · exact pattern_toNat (of_decide_eq_true h)
  · obtain ⟨lo, hi⟩ := of_decide_eq_true h
    exact ⟨fun hz => integer_toInt lo (by omega), fun hz => integer_toNat (by omega) hi⟩
  · obtain ⟨hdvd, lo, hi⟩ := of_decide_eq_true h
    exact fx_toInt_mul hdvd lo hi
  · exact regNumber_toNat (of_decide_eq_true h)

/-- Settles O4: the decoder run on the six words. -/
theorem sampleWordsDecode : Obligations.SampleWordsDecode :=
  ⟨rfl, rfl, rfl, rfl, rfl, rfl⟩

/-- Settles O6: the operand that `RUN` accepts is the one that the `SETCMD` line accepts. -/
theorem pseudoInstructionsExpand : Obligations.PseudoInstructionsExpand := by
  refine ⟨fun v hv => ⟨if_pos hv, ?_, assemble_of_wellFormed rfl⟩, rfl⟩
  have hline : AsmLine.wellFormed { mnemonic := .setcmd, reg := none, value := some v } = true := hv
  exact assemble_of_wellFormed hline

end Sys2Proof.Encoding
end

section
/-! PROOFS of the family 40_gray_tracker: GDEC, CAL and RDISP (R100 to R103). -/

namespace Sys2Proof.GrayTracker

open Sys2Proof.Machine Sys2Proof.Scope Sys2Proof.Registers Sys2Proof.Encoding

/-! ### Acceptance in IDLE only (R86) -/

theorem exec_of_idle {i : Instr} (hi : acceptedAlways i = false) {s : State} (hs : s.sequencer.seq = .idle) :
    exec i s = .next (idleEffect i s.quiet) := by
  rw [exec_eq_whenIdle_idleEffect hi, whenIdle_of_idle _ hs]

theorem exec_of_busy {i : Instr} (hi : acceptedAlways i = false) {s : State} (hs : s.sequencer.seq ≠ .idle) :
    exec i s = .next s.quiet := by
  rw [exec_eq_whenIdle_idleEffect hi, whenIdle_of_busy _ hs]

/-! ### The position and the displacement (R12, R102) -/

/-- What `CAL` and `GDEC` take for the position is the one whose Gray code is on the pins. -/
theorem gray2bin_on_pins (g : BitVec 5) : gray2bin g ^^^ (gray2bin g >>> 1) = g :=
  bin2gray_gray2bin g

/-- A displacement register holds `diff × DEG_STEP` itself: `diff` is in −16..16, so nothing is lost in 32 bits. -/
theorem toFx_disp_toInt_eq_steps (g r : BitVec 5) :
    (toFx (disp g r)).toInt = ringSteps (gray2bin g) r * 737280 := by
  rw [toFx_disp_toInt, ringDegrees, gray2bin_eq_pinPosition, mul_comm]

theorem ringSteps_self (p : BitVec 5) : ringSteps p p = 0 := by
  simp [ringSteps]

/-- No displacement from a reference taken at the same pins (R103 (3)). -/
theorem toFx_disp_gray2bin_self (g : BitVec 5) : toFx (disp g (gray2bin g)) = 0 := by
  apply BitVec.eq_of_toInt_eq
  rw [toFx_disp_toInt_eq_steps, ringSteps_self]
  rfl

/-! ### The obligations -/

/-- Settles O25: the position is the decoded one, and the encoder takes it back to the pins. -/
theorem gdecAnswersThePosition : Obligations.GdecAnswersThePosition :=
  ⟨fun _ hop => decode_of_opcode (m := .gdec) hop,
    fun s hs => ⟨gray2bin s.inp.g, gray2bin_on_pins s.inp.g, exec_of_idle (i := .gdec) rfl hs⟩,
    fun _ hs => exec_of_busy rfl hs⟩

/-- Settles O26: the reference is the decoded position. -/
theorem calCapturesTheReference : Obligations.CalCapturesTheReference :=
  ⟨fun _ hop => decode_of_opcode (m := .cal) hop,
    fun s hs => ⟨gray2bin s.inp.g, gray2bin_on_pins s.inp.g, exec_of_idle (i := .cal) rfl hs⟩,
    fun _ hs => exec_of_busy rfl hs⟩

/-- Settles O27: the response is the displacement of the decoded position, which is on the ring. -/
theorem rdispAnswersTheDisplacement : Obligations.RdispAnswersTheDisplacement := by
  refine ⟨fun _ hop => decode_of_opcode (m := .rdisp) hop, fun s hs => ?_, fun _ hs => exec_of_busy rfl hs⟩
  exact ⟨gray2bin s.inp.g, toFx (disp s.inp.g s.tracker.ref), gray2bin_on_pins s.inp.g,
    exec_of_idle (i := .rdisp) rfl hs, toFx_disp_toInt_eq_steps s.inp.g s.tracker.ref,
    toFx_disp_onRing s.inp.g s.tracker.ref⟩

/-- Settles O28: CAL keeps IDLE and the pins, so RDISP measures the decoded position from itself. -/
theorem calThenRdispReadsZero : Obligations.CalThenRdispReadsZero := by
  intro s hs
  have hidle : (s.quiet.withTracker (doCal s.inp)).sequencer.seq = .idle := hs
  refine ⟨s.quiet.withTracker (doCal s.inp), exec_of_idle (i := .cal) rfl hs, ?_⟩
  rw [exec_of_idle rfl hidle, ← toFx_disp_gray2bin_self s.inp.g]
  rfl

end Sys2Proof.GrayTracker
end

section
/-! PROOFS of the family 41_pulse_counter: PTICK, PRST and SPDUPD, the count in degrees, and a run of PTICK words
(R110 to R114). -/

namespace Sys2Proof.PulseCounter

open Sys2Proof.Machine Sys2Proof.Scope Sys2Proof.Encoding Sys2Proof.GrayTracker

/-! ### One sample (R110) -/

/-- The relative phase of the two channels, 1 when they differ: the `x` of R110. -/
def phase (x : Inputs) : BitVec 1 := x.ch1 ^^^ x.ch2

/-- R110's two counting conditions are together the one that the sample's phase is not the toggle flag. -/
theorem counting_iff_ne : ∀ x tog : BitVec 1, (x = 1 ∧ tog = 0) ∨ (x = 0 ∧ tog = 1) ↔ x ≠ tog := by decide

theorem channelsDiffer_iff (x : Inputs) : channelsDiffer x = true ↔ phase x = 1 :=
  decide_eq_true_iff

/-- The toggle flag follows the phase: it is moved exactly when it differs from it. -/
theorem togAfter_eq_phase (x : Inputs) (tog : BitVec 1) : togAfter x tog = phase x := by
  obtain hphase | hphase := BitVec.eq_zero_or_eq_one (phase x) <;>
    obtain htog | htog := BitVec.eq_zero_or_eq_one tog <;>
    simp [togAfter, channelsDiffer_iff, hphase, htog]

theorem doPtick_tog (x : Inputs) (c : Counter) : (doPtick x c).tog = phase x :=
  togAfter_eq_phase x c.tog

theorem doPtick_cnt_toNat (x : Inputs) (c : Counter) :
    (doPtick x c).cnt.toNat = if phase x ≠ c.tog then min (c.cnt.toNat + 1) (2 ^ 32 - 1) else c.cnt.toNat := by
  simp only [doPtick, togAfter_eq_phase]
  by_cases hsame : phase x = c.tog
  · rw [if_pos hsame, if_neg (not_not.2 hsame)]
  · rw [if_neg hsame, if_pos hsame]
    exact incSat32_toNat c.cnt

/-- Below saturation the count grows by one for a change of the phase and not otherwise. -/
theorem doPtick_cnt_toNat_of_fits {x : Inputs} {c : Counter}
    (hfit : c.cnt.toNat + (if c.tog = phase x then 0 else 1) < 2 ^ 32) :
    (doPtick x c).cnt.toNat = c.cnt.toNat + if c.tog = phase x then 0 else 1 := by
  rw [doPtick_cnt_toNat]
  by_cases hsame : c.tog = phase x
  · rw [if_pos hsame, if_neg (not_not.2 hsame.symm), add_zero]
  · rw [if_neg hsame] at hfit ⊢
    rw [if_pos (Ne.symm hsame)]
    omega

theorem doPtick_eq (x : Inputs) (c : Counter) :
    doPtick x c = { c with cnt := (doPtick x c).cnt, tog := phase x, chl := x.ch2 ++ x.ch1 } := by
  rw [← doPtick_tog x c]
  rfl

/-! ### A run of samples (R114) -/

/-- The counter after a `PTICK` on each sample of a list. -/
def countSamples : Counter → List Inputs → Counter
  | c, [] => c
  | c, x :: xs => countSamples (doPtick x c) xs

/-- Each sample counts one or nothing, as one term of `changes` does; the bound keeps every sum below saturation. -/
theorem countSamples_cnt_toNat {c : Counter} {xs : List Inputs}
    (hfit : c.cnt.toNat + changes c.tog (xs.map phase) < 2 ^ 32) :
    (countSamples c xs).cnt.toNat = c.cnt.toNat + changes c.tog (xs.map phase) := by
  induction xs generalizing c with
  | nil => rfl
  | cons x xs ih =>
    simp only [List.map_cons, changes] at hfit ⊢
    have hstep := doPtick_cnt_toNat_of_fits (x := x) (c := c) (by omega)
    have hrest := ih (c := doPtick x c) (by rw [hstep, doPtick_tog]; omega)
    rw [countSamples, hrest, hstep, doPtick_tog, add_assoc]

theorem countSamples_tog (c : Counter) (xs : List Inputs) :
    (countSamples c xs).tog = lastBit c.tog (xs.map phase) := by
  induction xs generalizing c with
  | nil => rfl
  | cons x xs ih => rw [countSamples, ih, doPtick_tog]; rfl

theorem countSamples_frame (c : Counter) (xs : List Inputs) :
    (countSamples c xs).cntlast = c.cntlast ∧ (countSamples c xs).spd = c.spd := by
  induction xs generalizing c with
  | nil => exact ⟨rfl, rfl⟩
  | cons x xs ih => exact ih (doPtick x c)

theorem run_succ_of_step {M : Host.Core} {s u : M.State} (h : M.step s = .next u) (n : Nat) :
    M.run (n + 1) s = M.run n u := by
  rw [Host.Core.run, h]

/-- A `PTICK` word with its sample, as the assembler puts it on the port. -/
def ptickArrival (x : Inputs) : Arrival := { word := 0x200000000000#48, inp := x }

theorem step_ptickArrival {s : State} {x : Inputs} {rest : List Arrival} (hidle : s.sequencer.seq = .idle)
    (hrst : x.rst = false) (hport : s.port = ptickArrival x :: rest) :
    step s = .next { s with counter := doPtick x s.counter, inp := x, outputs := Outputs.none, port := rest } := by
  have hdecode : decode (ptickArrival x).word = .ok .ptick := decode_encode .ptick
  rw [step_eq_runTaken hport, runTaken_of_decode_ok hrst hdecode]
  exact exec_of_idle (i := .ptick) rfl hidle

/-- A run of `PTICK` words keeps IDLE, so each word is accepted and only the counter's registers move. -/
theorem run_ptickArrivals {xs : List Inputs} {rest : List Arrival} {s : State} (hidle : s.sequencer.seq = .idle)
    (hrst : ∀ x ∈ xs, x.rst = false) (hport : s.port = xs.map ptickArrival ++ rest) :
    ∃ x o, Sys2Proof.core.run xs.length s =
      .next { s with counter := countSamples s.counter xs, inp := x, outputs := o, port := rest } := by
  induction xs generalizing s with
  | nil =>
    have hrest : s.port = rest := hport
    exact ⟨s.inp, s.outputs, by rw [← hrest]; rfl⟩
  | cons x xs ih =>
    obtain ⟨hx, hxs⟩ := List.forall_mem_cons.1 hrst
    obtain ⟨y, o, hrun⟩ := ih (s := { s with counter := doPtick x s.counter, inp := x, outputs := Outputs.none,
                                             port := xs.map ptickArrival ++ rest }) hidle hxs rfl
    exact ⟨y, o, (run_succ_of_step (step_ptickArrival hidle hx hport) xs.length).trans hrun⟩

/-! ### The count in degrees (R113) -/

/-- On magnitudes `divsat` is the quotient of natural numbers with its upper bound. -/
theorem divsat_natCast (n d : Nat) :
    divsat n d = (if d = 0 then (if n = 0 then 0 else 2 ^ 31 - 1) else min (n / d) (2 ^ 31 - 1) : Nat) := by
  obtain rfl | hd := eq_or_ne d 0
  · rw [Nat.cast_zero, divsat_zero, if_pos rfl]
    obtain rfl | hn := n.eq_zero_or_pos
    · rfl
    · rw [if_pos (Int.natCast_pos.2 hn), if_neg hn.ne']
      rfl
  · have hquot : tdiv n d = (n / d : Nat) := (Int.ofNat_tdiv n d).symm
    rw [divsat_of_ne_zero _ (Nat.cast_ne_zero.2 hd), hquot, if_neg hd]
    generalize n / d = q
    omega

/-! ### The obligations -/

/-- Settles O35: the run is the counter's own run over the samples, whose terms are those of `changes`. -/
theorem runOfPticksCountsTheChanges : Obligations.RunOfPticksCountsTheChanges := by
  intro xs rest s hidle hrst hport hfit
  obtain ⟨x, o, hrun⟩ := run_ptickArrivals hidle hrst hport
  obtain ⟨hcntlast, hspd⟩ := countSamples_frame s.counter xs
  exact ⟨_, hrun, countSamples_cnt_toNat hfit, countSamples_tog s.counter xs, rfl, rfl, rfl, rfl, rfl, rfl, rfl,
    hcntlast, hspd⟩

/-- Settles O30: the flag follows the phase, and the count grows when the flag is moved. -/
theorem ptickCountsOneTransition : Obligations.PtickCountsOneTransition := by
  refine ⟨fun _ hop => decode_of_opcode (m := .ptick) hop, fun s hs => ?_, fun _ hs => exec_of_busy rfl hs⟩
  refine ⟨(doPtick s.inp s.counter).cnt, ?_, ?_⟩
  · rw [exec_of_idle (i := .ptick) rfl hs]
    exact congrArg (fun c => Host.Outcome.next (s.quiet.withCounter c)) (doPtick_eq s.inp s.counter)
  · simp only [counting_iff_ne]
    exact doPtick_cnt_toNat s.inp s.counter

/-- Settles O32: the register holds the saturated quotient itself, which is in s32 range. -/
theorem spdupdComputesTheWindowedSpeed : Obligations.SpdupdComputesTheWindowedSpeed :=
  ⟨fun _ hop => decode_of_opcode (m := .spdupd) hop,
    fun s hs => ⟨(doSpdupd s.cfg s.counter).spd, exec_of_idle (i := .spdupd) rfl hs, toFx_divsat_toInt _ _⟩,
    fun _ hs => exec_of_busy rfl hs⟩

/-- Settles O33: the product is 0 only for `CNT = 0`, and the quotient is one of natural numbers. -/
theorem countToDegrees : Obligations.CountToDegrees := by
  intro k c
  have hzero : c.cnt.toNat * 360 * 65536 = 0 ↔ c.cnt.toNat = 0 := by omega
  simpa only [cntDeg, hzero, Nat.cast_mul, Nat.cast_ofNat] using
    divsat_natCast (c.cnt.toNat * 360 * 65536) k.cpr.toNat

/-- Settles O31: the effect in IDLE puts the reset counter in place. -/
theorem prstClearsTheCounter : Obligations.PrstClearsTheCounter :=
  ⟨fun _ hop => decode_of_opcode (m := .prst) hop, fun _ hs => exec_of_idle (i := .prst) rfl hs,
    fun _ hs => exec_of_busy rfl hs⟩

end Sys2Proof.PulseCounter
end

section
/-! PROOFS of the family 42_direction: DTHR, DHSMP, DHCLS and DRST, and the latch the two strategies share
(R120 to R125). -/

namespace Sys2Proof.DirectionEstimator

open Sys2Proof.Machine Sys2Proof.Scope Sys2Proof.Registers Sys2Proof.Encoding Sys2Proof.GrayTracker

/-! ### The threshold strategy (R120) -/

theorem latched_iff (d : Direction) : latched d = true ↔ d.dir ≠ 0 :=
  decide_eq_true_iff

theorem doDthr_of_latched {s : State} (h : s.direction.dir ≠ 0) (cur : Int) : doDthr cur s = s :=
  if_pos ((latched_iff s.direction).2 h)

theorem doDthr_of_still {s : State} (h : s.direction.dir = 0) (cur : Int) :
    doDthr cur s = { s with
      direction := { s.direction with dir := classify (normDelta (cur - s.tracker.prevang.toInt)) s.cfg.thresh.toInt }
      tracker := { s.tracker with prevang := toFx cur } } :=
  if_neg fun hlatched => (latched_iff s.direction).1 hlatched h

/-! ### The hysteresis strategy (R121, R123) -/

/-- R121's two patterns that count up are together an edge of channel 2 to the level of channel 1. -/
theorem counting_up_iff : ∀ pch2 ch2 ch1 : BitVec 1,
    ((pch2 = 0 ∧ ch2 = 1) ∧ ch1 = 1) ∨ ((pch2 = 1 ∧ ch2 = 0) ∧ ch1 = 0) ↔ pch2 ≠ ch2 ∧ ch2 = ch1 := by decide

/-- Its two patterns that count down are an edge of channel 2 away from the level of channel 1. -/
theorem counting_down_iff : ∀ pch2 ch2 ch1 : BitVec 1,
    ((pch2 = 0 ∧ ch2 = 1) ∧ ch1 = 0) ∨ ((pch2 = 1 ∧ ch2 = 0) ∧ ch1 = 1) ↔ pch2 ≠ ch2 ∧ ch2 ≠ ch1 := by decide

theorem tallyAfter_eq (x : Inputs) (d : Direction) :
    tallyAfter x d = if d.pch2 = x.ch2 then d.tally
      else if x.ch2 = x.ch1 then BitVec.ofNat 16 (min (d.tally.toNat + 1) 65535)
      else BitVec.ofNat 16 (d.tally.toNat - 1) := by
  simp only [tallyAfter, ch2Rises, ch2Falls, decide_eq_true_eq, counting_up_iff, counting_down_iff]
  by_cases hedge : d.pch2 = x.ch2
  · simp [hedge]
  · by_cases hlead : x.ch2 = x.ch1 <;> simp [hedge, hlead]

/-- Both moves of the tally stay in 16 bits. -/
theorem tallyAfter_toNat (x : Inputs) (d : Direction) :
    (tallyAfter x d).toNat = if d.pch2 = x.ch2 then d.tally.toNat
      else if x.ch2 = x.ch1 then min (d.tally.toNat + 1) 65535
      else d.tally.toNat - 1 := by
  have hrange := d.tally.isLt
  rw [tallyAfter_eq]
  split_ifs
  · rfl
  · exact Nat.mod_eq_of_lt (by omega)
  · exact Nat.mod_eq_of_lt (by omega)

theorem doDhcls_eq (k : Tunables) (d : Direction) :
    doDhcls k d = { d with
      dir := if d.dir ≠ 0 then d.dir
             else if d.tally.toNat > k.hyshi.toNat then 1
             else if d.tally.toNat < k.hyslo.toNat then 2 else 0 } := by
  by_cases hdir : d.dir = 0
  · have hstill : ¬ latched d = true := fun h => (latched_iff d).1 h hdir
    have hsame : { d with dir := 0 } = d := by rw [← hdir]
    rw [doDhcls, if_neg hstill, if_neg (not_not.2 hdir)]
    split_ifs
    · rfl
    · rfl
    · exact hsame.symm
  · rw [doDhcls, if_pos ((latched_iff d).2 hdir), if_pos hdir]

theorem doDhcls_of_latched {d : Direction} (h : d.dir ≠ 0) (k : Tunables) : doDhcls k d = d :=
  if_pos ((latched_iff d).2 h)

/-! ### The latch (R122) -/

theorem idleEffect_dir_of_latched {i : Instr} (hdrst : i ≠ .drst) (hstart : i ≠ .start) {s : State}
    (hlatched : s.direction.dir ≠ 0) : (idleEffect i s).direction.dir = s.direction.dir := by
  cases i with
  | drst => exact absurd rfl hdrst
  | start => exact absurd rfl hstart
  | dthr => exact congrArg (fun u : State => u.direction.dir) (doDthr_of_latched hlatched _)
  | dhcls => exact congrArg Direction.dir (doDhcls_of_latched hlatched s.cfg)
  | _ => rfl

/-- A trial boundary keeps the direction or enters a trial with STILL (R144). -/
theorem doneOrEnter_dir_cases (s : State) :
    (doneOrEnter s).direction.dir = s.direction.dir ∨
      ((doneOrEnter s).direction.dir = 0 ∧ (doneOrEnter s).sequencer.seq = .running) := by
  obtain ⟨-, h⟩ | ⟨-, h⟩ := doneOrEnter_cases s <;> rw [h]
  · exact .inl rfl
  · exact .inr ⟨rfl, rfl⟩

/-- The trial-end reset writes STILL (R145), which both continuations keep. -/
theorem tickReporting_dir (s : State) : (tickReporting s).direction.dir = 0 := by
  obtain h | ⟨h, -⟩ := doneOrEnter_dir_cases _ <;> exact h

theorem tickDirection_of_latched {s : State} (h : s.direction.dir ≠ 0) (dv : Int) : tickDirection dv s = s :=
  if_neg fun hdue => hdue.1 ((latched_iff s.direction).2 h)

/-- Of the sub-steps of R143 only sub-step 6 writes `DIR`, and the latch stops it. -/
theorem controlPass_dir_of_latched {s : State} (h : s.direction.dir ≠ 0) :
    (controlPass s).direction.dir = s.direction.dir := by
  have hcontrol (dv : Int) (u : State) : (tickControl dv u).direction = u.direction := by
    obtain ⟨-, -, hdirection, -⟩ := tickControl_frame dv u
    exact hdirection
  obtain ⟨-, hspeed, -⟩ := tickSpeed_frame (tickCount (tickElapsed s))
  have htally : (tickTally (tickSpeed (tickCount (tickElapsed s)))).direction.dir = s.direction.dir := by
    calc (tickTally (tickSpeed (tickCount (tickElapsed s)))).direction.dir
        = (tickSpeed (tickCount (tickElapsed s))).direction.dir := rfl
      _ = s.direction.dir := congrArg Direction.dir hspeed
  rw [controlPass, hcontrol, tickDirection_of_latched (htally ▸ h), htally]

theorem tickRunning_dir_of_latched {s : State} (h : s.direction.dir ≠ 0) :
    (tickRunning s).direction.dir = s.direction.dir := by
  rw [tickRunning_eq_tickExit]
  obtain hexit | hexit := tickExit_cases (controlPass s) <;> rw [hexit] <;> exact controlPass_dir_of_latched h

/-- The operations that move a latched direction, and where they move it. -/
theorem exec_unlatches {i : Instr} {s t : State} (h : exec i s = .next t) (hlatched : s.direction.dir ≠ 0)
    (hne : t.direction.dir ≠ s.direction.dir) :
    t.direction.dir = 0 ∧
      ((i = .drst ∧ s.sequencer.seq = .idle) ∨ (i = .start ∧ s.sequencer.seq = .idle ∧ t.sequencer.seq = .running) ∨
       (i = .tick ∧ s.sequencer.seq = .reporting)) := by
  obtain ⟨-, -, hdirection, -⟩ | ⟨hseq, rfl⟩ | ⟨-, -, rfl⟩ | ⟨hi, hseq, rfl⟩ := exec_cases h
  · exact absurd (congrArg Direction.dir hdirection) hne
  · by_cases hdrst : i = .drst
    · subst hdrst
      exact ⟨rfl, .inl ⟨rfl, hseq⟩⟩
    by_cases hstart : i = .start
    · subst hstart
      obtain hkept | ⟨hstill, hrun⟩ := doneOrEnter_dir_cases
        (s.quiet.withSequencer { s.quiet.sequencer with rep := 1 })
      · exact absurd hkept hne
      · exact ⟨hstill, .inr (.inl ⟨rfl, hseq, hrun⟩)⟩
    exact absurd (idleEffect_dir_of_latched hdrst hstart (s := s.quiet) hlatched) hne
  · exact absurd (tickRunning_dir_of_latched (s := s.quiet) hlatched) hne
  · exact ⟨tickReporting_dir s.quiet, .inr (.inr ⟨hi, hseq⟩)⟩

/-- The taken words that move a latched direction: one with reset, or one of the three operations. -/
theorem runTaken_unlatches {a : Arrival} {s t : State} (h : runTaken a s = .next t) (hlatched : s.direction.dir ≠ 0)
    (hne : t.direction.dir ≠ s.direction.dir) :
    t.direction.dir = 0 ∧
      (a.inp.rst = true ∨ decode a.word = .ok .drst ∨ decode a.word = .ok .start ∨ decode a.word = .ok .tick) := by
  cases hrst : a.inp.rst with
  | true =>
    rw [runTaken_of_rst hrst] at h
    cases h
    exact ⟨rfl, .inl rfl⟩
  | false =>
    cases hdec : decode a.word with
    | ok i =>
      rw [runTaken_of_decode_ok hrst hdec] at h
      obtain ⟨hstill, ⟨rfl, -⟩ | ⟨rfl, -⟩ | ⟨rfl, -⟩⟩ := exec_unlatches h hlatched hne
      · exact ⟨hstill, .inr (.inl rfl)⟩
      · exact ⟨hstill, .inr (.inr (.inl rfl))⟩
      · exact ⟨hstill, .inr (.inr (.inr rfl))⟩
    | error e =>
      rw [runTaken_of_decode_error hrst hdec] at h
      cases h
      exact absurd rfl hne

/-! ### The obligations -/

/-- Settles O36: the displacement is the one of the ring, and the latch decides between no effect and one
classification. -/
theorem dthrClassifiesOnce : Obligations.DthrClassifiesOnce := by
  refine ⟨fun _ hop => decode_of_opcode (m := .dthr) hop, fun s hs hlatched => ?_,
    fun s raw delta hs hstill hraw hdelta => ?_, fun _ hs => exec_of_busy rfl hs⟩
  · exact (exec_of_idle rfl hs).trans (congrArg _ (doDthr_of_latched (s := s.quiet) hlatched _))
  · have hnorm : normDelta (disp s.inp.g s.tracker.ref - s.tracker.prevang.toInt) = delta := by
      rw [disp_eq_ringDegrees, ← hraw, hdelta]
      rfl
    refine ⟨toFx (disp s.inp.g s.tracker.ref), toFx_disp_toInt _ _, ?_⟩
    rw [← hnorm]
    exact (exec_of_idle rfl hs).trans (congrArg _ (doDthr_of_still (s := s.quiet) hstill _))

/-- Settles O38: an edge of channel 2 moves the tally up or down by the level it ends at. -/
theorem dhsmpMovesTheTally : Obligations.DhsmpMovesTheTally :=
  ⟨fun _ hop => decode_of_opcode (m := .dhsmp) hop,
    fun s hs => ⟨tallyAfter s.inp s.direction, exec_of_idle (i := .dhsmp) rfl hs, tallyAfter_toNat s.inp s.direction⟩,
    fun _ hs => exec_of_busy rfl hs⟩

/-- Settles O39: the classification writes `DIR` alone, and a latched one back. -/
theorem dhclsComparesTheTally : Obligations.DhclsComparesTheTally := by
  refine ⟨fun _ hop => decode_of_opcode (m := .dhcls) hop, fun s hs => ?_, fun _ hs => exec_of_busy rfl hs⟩
  rw [exec_of_idle (i := .dhcls) rfl hs]
  exact congrArg (fun d => Host.Outcome.next (s.quiet.withDirection d)) (doDhcls_eq s.cfg s.direction)

/-- Settles O41: an operation by its effects, a step by the word it takes. -/
theorem latchedDirectionIsSticky : Obligations.LatchedDirectionIsSticky := by
  refine ⟨fun _ _ _ h hlatched hne => exec_unlatches h hlatched hne, fun s t h hlatched hne => ?_⟩
  cases hport : s.port with
  | nil =>
    rw [step_of_port_nil hport] at h
    cases h
    exact absurd rfl hne
  | cons a rest =>
    rw [step_eq_runTaken hport] at h
    obtain ⟨hstill, hword⟩ := runTaken_unlatches h hlatched hne
    exact ⟨hstill, a, rest, rfl, hword⟩

/-- Settles O37, on the document's three values. -/
theorem classifyFifteenDegrees : Obligations.ClassifyFifteenDegrees := by
  unfold Obligations.ClassifyFifteenDegrees
  decide

/-- Settles O40: the effect in IDLE puts the reset estimator in place. -/
theorem drstResetsTheEstimator : Obligations.DrstResetsTheEstimator :=
  ⟨fun _ hop => decode_of_opcode (m := .drst) hop, fun _ hs => exec_of_idle (i := .drst) rfl hs,
    fun _ hs => exec_of_busy rfl hs⟩

end Sys2Proof.DirectionEstimator
end

section
/-! PROOFS of the family 43_pi_controller: PIGAIN, PISTEP and PIRST, and the actuation outputs `duty` and `dir_sel`
(R130 to R135). -/

namespace Sys2Proof.PiController

open Sys2Proof.Machine Sys2Proof.Scope Sys2Proof.Registers Sys2Proof.Encoding Sys2Proof.GrayTracker

/-! ### One control step (R131)

The comparison of the measurement with the setpoint is the only branch, so each side of it has one equation. -/

theorem doPistep_of_reached {sp m : Int} (h : sp ≤ m) (k : Tunables) (p : Controller) :
    doPistep k sp m p = { p with err := toFx (sat32 (sp - m)), integ := 0, out := forcedOut k } :=
  if_pos h

theorem doPistep_of_below {sp m : Int} (h : m < sp) (k : Tunables) (p : Controller) :
    doPistep k sp m p = { p with
      err := toFx (sat32 (sp - m))
      integ := toFx48 (integAfter p (sat32 (sp - m)))
      out := toFx (outAfter k p (sat32 (sp - m)) (integAfter p (sat32 (sp - m)))) } :=
  if_neg (not_le.2 h)

/-- The frame of a control step: the gain stays, and the other three registers are all there is. -/
theorem doPistep_eq (k : Tunables) (sp m : Int) (p : Controller) :
    doPistep k sp m p = { p with
      err := (doPistep k sp m p).err, integ := (doPistep k sp m p).integ, out := (doPistep k sp m p).out } := by
  obtain h | h := le_or_gt sp m
  · rw [doPistep_of_reached h]
  · rw [doPistep_of_below h]

theorem doPistep_err_toInt (k : Tunables) (sp m : Int) (p : Controller) :
    (doPistep k sp m p).err.toInt = sat32 (sp - m) := by
  obtain h | h := le_or_gt sp m
  · rw [doPistep_of_reached h, toFx_sat32_toInt]
  · rw [doPistep_of_below h, toFx_sat32_toInt]

theorem doPistep_integ_toInt_of_below {sp m : Int} (h : m < sp) (k : Tunables) (p : Controller) :
    (doPistep k sp m p).integ.toInt = sat48 (p.integ.toInt + sat32 (sp - m)) := by
  rw [doPistep_of_below h, integAfter, toFx48_sat48_toInt]

/-- Both bounds of the clamp are registers, so the clamped sum fits a register whatever their order. -/
theorem toFx_outAfter_toInt (k : Tunables) (p : Controller) (err integ : Int) :
    (toFx (outAfter k p err integ)).toInt = outAfter k p err integ := by
  obtain ⟨hminLow, hminHigh⟩ := fx_range k.outmin
  obtain ⟨-, hmaxHigh⟩ := fx_range k.outmax
  obtain ⟨hlow, hhigh⟩ := clamp_range (x := floor16 (p.kp.toInt * err + k.ki.toInt * integ)) hminLow hminHigh hmaxHigh
  exact toFx_toInt hlow hhigh

/-- The output is computed from the error and the integral that the same step stores. -/
theorem doPistep_out_toInt_of_below {sp m : Int} (h : m < sp) (k : Tunables) (p : Controller) :
    (doPistep k sp m p).out.toInt =
      outAfter k p (doPistep k sp m p).err.toInt (doPistep k sp m p).integ.toInt := by
  rw [doPistep_err_toInt, doPistep_integ_toInt_of_below h, doPistep_of_below h, toFx_outAfter_toInt, integAfter]

/-! ### Anti-windup (R135) -/

theorem sat32_nonpos {x : Int} (h : x ≤ 0) : sat32 x ≤ 0 := by
  unfold sat32
  omega

theorem forcedOut_of_mode_zero {k : Tunables} (h : k.mode = 0) : forcedOut k = 0 := by
  rw [forcedOut, h]
  rfl

theorem forcedOut_of_mode_one {k : Tunables} (h : k.mode = 1) : forcedOut k = k.base :=
  if_pos h

/-! ### The actuation outputs (R134) -/

/-- In RUNNING the clamp to 0..255 fits the 8 bits of `duty`. -/
theorem duty_toNat_of_running {s : State} (h : s.sequencer.seq = .running) :
    ((duty s).toNat : Int) = max 0 (min (s.pi.out.toInt / 65536) 255) := by
  have hduty : duty s = BitVec.ofInt 8 (clamp (floor16 s.pi.out.toInt) 0 Config.dutyMax) := by
    simp only [duty, h]
  rw [hduty, BitVec.toNat_ofInt, clamp, floor16, Config.dutyMax]
  omega

/-- The integer part of a nonnegative `fx` value below 256 is bits 23:16 of the register. -/
theorem integerPart_eq_slice {v : Fx} (lo : 0 ≤ v.toInt) (hi : v.toInt < 256 * 65536) :
    ((v.extractLsb' 16 8).toNat : Int) = v.toInt / 65536 := by
  have hnat : v.toInt = v.toNat := BitVec.toInt_eq_toNat_of_lt (BitVec.toInt_pos_iff.1 lo)
  rw [BitVec.extractLsb'_toNat, Nat.shiftRight_eq_div_pow]
  omega

theorem duty_eq_slice {s : State} (h : s.sequencer.seq = .running) (lo : 0 ≤ s.pi.out.toInt)
    (hi : s.pi.out.toInt < 256 * 65536) : duty s = s.pi.out.extractLsb' 16 8 := by
  apply BitVec.eq_of_toNat_eq
  have hduty := duty_toNat_of_running h
  have hslice := integerPart_eq_slice lo hi
  omega

theorem revFlag_eq_one_iff (v : Int) : revFlag v = 1 ↔ v < 0 := by
  by_cases h : v < 0
  · simp [revFlag, h]
  · simp [revFlag, h]

/-! ### The obligations -/

/-- Settles O43: the saturated quotient is in s32 range, so `KP` holds the quotient itself. -/
theorem pigainDividesByTheCommand : Obligations.PigainDividesByTheCommand :=
  ⟨fun _ hop => decode_of_opcode (m := .pigain) hop,
    fun s hs => ⟨(doPigain s.cfg s.sequencer.cmd s.pi).kp, exec_of_idle (i := .pigain) rfl hs,
      toFx_divsat_toInt _ _⟩,
    fun _ hs => exec_of_busy rfl hs⟩

/-- Settles O44: three registers move, each by the side of the setpoint the measurement is on. -/
theorem pistepRunsOneControlStep : Obligations.PistepRunsOneControlStep := by
  refine ⟨fun _ hop => decode_of_opcode (m := .pistep) hop, fun s d hs => ?_, fun _ _ hs => exec_of_busy rfl hs⟩
  have hexec : exec (.pistep d) s =
      .next (s.quiet.withPi (doPistep s.cfg s.sequencer.cmd.toInt d.toInt s.pi)) := exec_of_idle rfl hs
  rw [doPistep_eq] at hexec
  refine ⟨_, _, _, hexec, doPistep_err_toInt _ _ _ _, fun hreached => ?_, fun hbelow => ⟨?_, ?_⟩⟩
  · rw [doPistep_of_reached hreached]
    exact ⟨rfl, rfl⟩
  · rw [doPistep_err_toInt, doPistep_integ_toInt_of_below hbelow]
  · exact doPistep_out_toInt_of_below hbelow s.cfg s.pi

/-- Settles O45: the measurement takes the side of the setpoint that forces the output, where the difference has no
positive part to saturate. -/
theorem antiWindupFires : Obligations.AntiWindupFires := by
  intro s d hs hreached
  refine ⟨_, exec_of_idle (i := .pistep d) rfl hs, ?_⟩
  have hpi := doPistep_of_reached hreached s.cfg s.pi
  have herr := doPistep_err_toInt s.cfg s.sequencer.cmd.toInt d.toInt s.pi
  refine ⟨congrArg Controller.integ hpi, fun hmode => ?_, fun hmode => ?_, herr, ?_⟩
  · exact (congrArg Controller.out hpi).trans (forcedOut_of_mode_zero hmode)
  · exact (congrArg Controller.out hpi).trans (forcedOut_of_mode_one hmode)
  · exact herr.trans_le (sat32_nonpos (by omega))

/-- Settles O47: `duty` by the sequencer's state, `dir_sel` by the flag that SETCMD stores. -/
theorem actuationOutputsFollowTheState : Obligations.ActuationOutputsFollowTheState := by
  refine ⟨fun _ => duty_toNat_of_running, fun _ => duty_eq_slice, fun _ => duty_of_not_running, fun _ => rfl,
    fun s t d hs hexec => ?_⟩
  rw [exec_of_idle rfl hs] at hexec
  cases hexec
  exact revFlag_eq_one_iff d.toInt

/-- Settles O46: the effect in IDLE puts 0 in the integral alone. -/
theorem pirstClearsTheIntegral : Obligations.PirstClearsTheIntegral :=
  ⟨fun _ hop => decode_of_opcode (m := .pirst) hop, fun _ hs => exec_of_idle (i := .pirst) rfl hs,
    fun _ hs => exec_of_busy rfl hs⟩

end Sys2Proof.PiController
end

section
/-! PROOFS of the family 44_sequencer: SETCMD, START and TICK, the transitions of `SEQ`, and a session without a TICK
(R140 to R150). -/

namespace Sys2Proof.Sequencer

open Sys2Proof.Machine Sys2Proof.Scope Sys2Proof.Registers Sys2Proof.Encoding Sys2Proof.GrayTracker

/-! ### A session without a TICK (R150, R200) -/

theorem sameRegisters_trans {s t u : State} (hst : SameRegisters s t) (htu : SameRegisters t u) :
    SameRegisters s u := by
  obtain ⟨htracker, hcounter, hdirection, hpi, hsequencer, hreport, hcfg⟩ := hst
  obtain ⟨htracker', hcounter', hdirection', hpi', hsequencer', hreport', hcfg'⟩ := htu
  exact ⟨htracker.trans htracker', hcounter.trans hcounter', hdirection.trans hdirection', hpi.trans hpi',
    hsequencer.trans hsequencer', hreport.trans hreport', hcfg.trans hcfg'⟩

theorem seq_of_sameRegisters {s t : State} (h : SameRegisters t s) : t.sequencer.seq = s.sequencer.seq := by
  obtain ⟨-, -, -, -, hsequencer, -⟩ := h
  rw [hsequencer]

/-- R134: `duty` is a view of `SEQ` and `OUT`. -/
theorem duty_of_sameRegisters {s t : State} (h : SameRegisters t s) : duty t = duty s := by
  obtain ⟨-, -, -, hpi, hsequencer, -⟩ := h
  rw [duty, duty, hpi, hsequencer]

/-- Outside IDLE only `TICK` moves a register (R86). -/
theorem exec_sameRegisters_of_busy {i : Instr} {s t : State} (hbusy : s.sequencer.seq ≠ .idle) (hi : i ≠ .tick)
    (h : exec i s = .next t) : SameRegisters t s := by
  obtain hsame | ⟨hidle, -⟩ | ⟨htick, -⟩ | ⟨htick, -⟩ := exec_cases h
  · exact hsame
  · exact absurd hidle hbusy
  · exact absurd htick hi
  · exact absurd htick hi

theorem runTaken_sameRegisters_of_noTick {a : Arrival} {s t : State} (hbusy : s.sequencer.seq ≠ .idle)
    (ha : NoTick a) (h : runTaken a s = .next t) : SameRegisters t s := by
  obtain ⟨hrst, hword⟩ := ha
  cases hdec : decode a.word with
  | ok i =>
    rw [runTaken_of_decode_ok hrst hdec] at h
    exact exec_sameRegisters_of_busy hbusy (fun htick => hword (htick ▸ hdec)) h
  | error e =>
    rw [runTaken_of_decode_error hrst hdec] at h
    cases h
    exact sameRegisters_modelFields s _ _ _

/-- One step outside IDLE, whose word, if there is one, is no `TICK`. -/
theorem step_sameRegisters_of_noTick {s t : State} (hbusy : s.sequencer.seq ≠ .idle)
    (hword : ∀ a rest, s.port = a :: rest → NoTick a) (h : step s = .next t) : SameRegisters t s := by
  cases hport : s.port with
  | nil =>
    rw [step_of_port_nil hport] at h
    cases h
    exact sameRegisters_modelFields s _ _ _
  | cons a rest =>
    rw [step_eq_runTaken hport] at h
    have hkept : SameRegisters t ((s.withInp a.inp).withPort rest) :=
      runTaken_sameRegisters_of_noTick hbusy (hword a rest hport) h
    exact sameRegisters_trans hkept (sameRegisters_modelFields s _ _ _)

/-- The port after a step holds the later words, so a run meets only words among the first ones waiting (R6). -/
theorem run_sameRegisters_of_noTick {n : Nat} {s t : State} (hbusy : s.sequencer.seq ≠ .idle)
    (hwords : ∀ a ∈ s.port.take n, NoTick a) (hrun : Sys2Proof.core.run n s = .next t) : SameRegisters t s := by
  induction n generalizing s with
  | zero =>
    cases hrun
    exact sameRegisters_modelFields t _ _ _
  | succ n ih =>
    obtain ⟨u, hstep, hrest⟩ := run_succ_next hrun
    have hsame : SameRegisters u s :=
      step_sameRegisters_of_noTick hbusy (fun a rest hport => hwords a (by simp [hport])) hstep
    have hport : u.port = s.port.tail := (wordsLeaveInArrivalOrder s u hstep).1
    have htake : u.port.take n = (s.port.take (n + 1)).tail := by
      rw [hport, List.tail_take_eq_take_tail, Nat.add_sub_cancel]
    have hlater : ∀ a ∈ u.port.take n, NoTick a := fun a ha => hwords a (List.mem_of_mem_tail (htake ▸ ha))
    have hbusy' : u.sequencer.seq ≠ .idle := seq_of_sameRegisters hsame ▸ hbusy
    exact sameRegisters_trans (ih hbusy' hlater hrest) hsame

/-! ### Trial boundaries (R141, R144, R147) -/

theorem doneOrEnter_of_exhausted {s : State} (h : s.cfg.maxreps.toNat < s.sequencer.rep.toNat) :
    doneOrEnter s = s.withSequencer { s.sequencer with seq := .done } :=
  if_pos ((repsExhausted_iff s).2 h)

theorem doneOrEnter_of_budget {s : State} (h : s.sequencer.rep.toNat ≤ s.cfg.maxreps.toNat) :
    doneOrEnter s = enterRunning s :=
  if_neg fun hexhausted => absurd ((repsExhausted_iff s).1 hexhausted) (not_lt.2 h)

theorem doneOrEnter_seq (s : State) :
    (doneOrEnter s).sequencer.seq = if s.sequencer.rep.toNat ≤ s.cfg.maxreps.toNat then .running else .done := by
  obtain ⟨hlt, h⟩ | ⟨hle, h⟩ := doneOrEnter_cases s <;> rw [h]
  · rw [if_neg (not_le.2 hlt)]
    rfl
  · rw [if_pos hle]
    rfl

/-- Below the end of the range the saturating increment is the plain one. -/
theorem incSat32_of_lt {x : BitVec 32} (h : x.toNat + 1 < 2 ^ 32) : incSat32 x = x + 1 := by
  refine BitVec.eq_of_toNat_eq ?_
  have hone : (1 : BitVec 32).toNat = 1 := rfl
  rw [incSat32_toNat, BitVec.toNat_add, hone]
  omega

/-- `MAXREPS` has 16 bits, so the saturation of `REP` does not show in the comparison with it. -/
theorem incSat32_le_maxreps_iff (x : BitVec 32) (maxreps : BitVec 16) :
    (incSat32 x).toNat ≤ maxreps.toNat ↔ x.toNat + 1 ≤ maxreps.toNat := by
  have hrange := maxreps.isLt
  rw [incSat32_toNat]
  omega

theorem doneOrEnter_of_rep_one_seq (s : State) :
    (doneOrEnter (s.withSequencer { s.sequencer with rep := 1 })).sequencer.seq =
      if s.cfg.maxreps.toNat = 0 then .done else .running := by
  have hone : (1 : BitVec 32).toNat = 1 := rfl
  rw [doneOrEnter_seq]
  simp only [State.withSequencer_sequencer, State.withSequencer_cfg, hone, Nat.one_le_iff_ne_zero]
  exact ite_not ..

theorem tickReporting_seq (s : State) :
    (tickReporting s).sequencer.seq =
      if s.sequencer.rep.toNat + 1 ≤ s.cfg.maxreps.toNat then .running else .done := by
  simp only [← incSat32_le_maxreps_iff]
  exact doneOrEnter_seq _

/-- Of the effects in IDLE only that of `START` moves `SEQ` (R149). -/
theorem idleEffect_seq {i : Instr} (hi : i ≠ .start) (s : State) :
    (idleEffect i s).sequencer.seq = s.sequencer.seq := by
  cases i with
  | start => exact absurd rfl hi
  | dthr => exact congrArg Prod.fst (heldInPass_doDthr _ s)
  | _ => rfl

/-! ### The magnitude of a command (R140) -/

/-- The magnitude of the least number, alone, is past the range and saturates. -/
theorem doSetcmd_cmd_toInt {v : Int} (lo : -2147483648 ≤ v) (hi : v ≤ 2147483647) (q : Sequencer) :
    (doSetcmd v q).cmd.toInt = min |v| (2 ^ 31 - 1) := by
  simp only [doSetcmd]
  split
  next hneg =>
    rw [toFx_sat32_toInt, sat32, abs_of_neg hneg]
    omega
  next hnonneg =>
    rw [toFx_toInt lo hi, abs_of_nonneg (not_lt.1 hnonneg)]
    omega

/-! ### The sub-steps of a control pass, register by register (R143)

A timed sub-step is given by the condition it is due under, and each register it may write by that condition. -/

/-- The speed update is due (R143 sub-step 4). -/
def speedDue (s : State) : Bool :=
  decide (s.cfg.mode = 1 ∧ s.cfg.tspd.toNat ≤ (s.inp.now - s.sequencer.tlastspd).toNat)

/-- The direction evaluation is due (R143 sub-step 6). -/
def directionDue (s : State) : Bool :=
  decide (s.direction.dir = 0 ∧ s.cfg.tdir.toNat ≤ (s.inp.now - s.sequencer.tlastdir).toNat)

/-- The PI step is due (R143 sub-step 7). -/
def controlDue (s : State) : Bool :=
  decide (s.cfg.tctrl.toNat ≤ (s.inp.now - s.sequencer.tlastpi).toNat)

theorem speedDue_iff (s : State) :
    speedDue s = true ↔ s.cfg.mode = 1 ∧ due s.inp s.sequencer.tlastspd s.cfg.tspd := by
  rw [due_iff]
  exact decide_eq_true_iff

theorem directionDue_iff (s : State) :
    directionDue s = true ↔ latched s.direction = false ∧ due s.inp s.sequencer.tlastdir s.cfg.tdir := by
  rw [due_iff, latched_eq_false_iff]
  exact decide_eq_true_iff

/-- Sub-step 4. -/
theorem tickSpeed_registers (s : State) : tickSpeed s = { s with
    counter := if speedDue s then doSpdupd s.cfg s.counter else s.counter
    sequencer := { s.sequencer with tlastspd := if speedDue s then s.inp.now else s.sequencer.tlastspd }
    outputs := { s.outputs with spdStb := s.outputs.spdStb || speedDue s } } := by
  rw [tickSpeed_eq]
  simp only [← speedDue_iff]
  cases speedDue s <;> simp

/-- Sub-step 6. -/
theorem tickDirection_registers (dv : Int) (s : State) : tickDirection dv s = { s with
    tracker := if directionDue s ∧ s.cfg.dstrat = 0 then { s.tracker with prevang := toFx dv } else s.tracker
    direction := if directionDue s then
        (if s.cfg.dstrat = 0 then
          { s.direction with dir := classify (normDelta (dv - s.tracker.prevang.toInt)) s.cfg.thresh.toInt }
         else doDhcls s.cfg s.direction)
      else s.direction
    sequencer := { s.sequencer with tlastdir := if directionDue s then s.inp.now else s.sequencer.tlastdir } } := by
  rw [tickDirection_eq]
  simp only [← directionDue_iff]
  cases directionDue s <;> simp

/-- Sub-step 7. -/
theorem tickControl_registers (dv : Int) (s : State) : tickControl dv s = { s with
    pi := if controlDue s then doPistep s.cfg s.sequencer.cmd.toInt (meas dv s) s.pi else s.pi
    sequencer := { s.sequencer with tlastpi := if controlDue s then s.inp.now else s.sequencer.tlastpi } } := by
  have hdue : due s.inp s.sequencer.tlastpi s.cfg.tctrl = controlDue s := rfl
  rw [tickControl_eq, hdue]
  cases controlDue s <;> rfl

/-- Sub-step 8. -/
theorem tickExit_registers {s : State} (hseq : s.sequencer.seq = .running) : tickExit s = { s with
    sequencer := { s.sequencer with
      seq := if s.cfg.ttrial.toNat ≤ s.sequencer.elapsed.toNat ∨ s.cfg.maxreps.toNat < s.sequencer.rep.toNat
        then .reporting else .running } } := by
  rw [tickExit_eq]
  simp only [repsExhausted_iff, ← hseq]
  split <;> rfl

/-! ### The obligations -/

/-- Settles O55: the steps of the run keep the registers, and `duty` is a view of them. -/
theorem withoutTicksASessionStands : Obligations.WithoutTicksASessionStands := by
  intro n s t hbusy hwords hrun
  have hsame := run_sameRegisters_of_noTick hbusy hwords hrun
  exact ⟨hsame, duty_of_sameRegisters hsame⟩

/-- Settles O49: the effect in IDLE writes the magnitude and the flag. -/
theorem setcmdLoadsMagnitudeAndFlag : Obligations.SetcmdLoadsMagnitudeAndFlag :=
  ⟨fun _ hop => decode_of_opcode (m := .setcmd) hop,
    fun s d hs => ⟨(doSetcmd (asS32 d) s.sequencer).cmd, exec_of_idle (i := .setcmd d) rfl hs,
      doSetcmd_cmd_toInt (fx_range d).1 (fx_range d).2 s.sequencer⟩,
    fun _ _ hs => exec_of_busy rfl hs⟩

/-- Settles O50: with `REP = 1` the budget is exhausted exactly when it is 0. -/
theorem startEntersTheFirstTrial : Obligations.StartEntersTheFirstTrial := by
  refine ⟨fun _ hop => decode_of_opcode (m := .start) hop, fun s hs hzero => ?_, fun s hs hpos => ?_,
    fun _ hs => exec_of_busy rfl hs⟩
  · have hexhausted : s.cfg.maxreps.toNat < 1 := by omega
    exact (exec_of_idle rfl hs).trans (congrArg _ (doneOrEnter_of_exhausted hexhausted))
  · have hbudget : 1 ≤ s.cfg.maxreps.toNat := by omega
    exact ⟨gray2bin s.inp.g, (doPigain s.cfg s.sequencer.cmd s.pi).kp, gray2bin_on_pins s.inp.g,
      toFx_divsat_toInt _ _, (exec_of_idle rfl hs).trans (congrArg _ (doneOrEnter_of_budget hbudget))⟩

/-- Settles O52: the registers of each sub-step, put one into the other. -/
theorem tickRunsOneControlPass : Obligations.TickRunsOneControlPass := by
  intro s hrun
  have hseq : (controlPass s.quiet).sequencer.seq = .running :=
    (congrArg Prod.fst (heldInPass_controlPass s.quiet)).trans hrun
  have hdv : disp s.inp.g s.tracker.ref = ringDegrees s.inp.g s.tracker.ref := disp_eq_ringDegrees _ _
  rw [exec_tick_running hrun, tickRunning_eq_tickExit, tickExit_registers hseq, controlPass, tickControl_registers,
    tickDirection_registers, tickSpeed_registers, ← hdv]
  rfl

/-- Settles O53: below the end of the range `REP + 1` is what the boundary compares with the budget. -/
theorem tickReportsAndGoesOn : Obligations.TickReportsAndGoesOn := by
  intro s hseq hrptn hrep
  have hinc := incSat32_of_lt hrep
  refine ⟨makeReport s, (doPigain s.cfg s.sequencer.cmd s.pi).kp, toFx_disp_toInt _ _, toFx_cntDeg_toInt _ _, ?_, rfl,
    rfl, rfl, ?_, toFx_divsat_toInt _ _, fun hexhausted => ?_, fun hbudget => ?_⟩
  · simp only [makeReport, toFx_sat32_toInt, toFx_disp_toInt, toFx_cntDeg_toInt]
    rw [disp_eq_ringDegrees]
  · simp only [makeReport, incSat32_toNat]
    omega
  · have hlt : s.cfg.maxreps.toNat < (incSat32 s.sequencer.rep).toNat := by
      rw [← not_le, incSat32_le_maxreps_iff]
      omega
    rw [exec_tick_reporting hseq, ← hinc]
    exact congrArg _ (doneOrEnter_of_exhausted hlt)
  · rw [exec_tick_reporting hseq, ← hinc, ← gray2bin_eq_pinPosition]
    exact congrArg _ (doneOrEnter_of_budget ((incSat32_le_maxreps_iff _ _).2 hbudget))

/-- Settles O54: the three rows of R149 that move `SEQ`, then every other pair of a state and an operation. -/
theorem sequencerTransitions : Obligations.SequencerTransitions := by
  refine ⟨fun i s t h => ?_, fun s t a rest hport hrst h => ?_⟩
  · split
    next hidle =>
      rw [exec_of_idle rfl hidle] at h
      cases h
      exact doneOrEnter_of_rep_one_seq s.quiet
    next hrun =>
      rw [tickRunsOneControlPass s hrun] at h
      cases h
      simp only [← not_le (a := s.cfg.ttrial.toNat), ← not_lt (b := s.sequencer.rep.toNat), ← not_or, ite_not]
    next hreporting =>
      rw [exec_tick_reporting hreporting] at h
      cases h
      exact tickReporting_seq s.quiet
    next hstart hrunning hreporting =>
      obtain hsame | ⟨hidle, rfl⟩ | ⟨hi, hseq, -⟩ | ⟨hi, hseq, -⟩ := exec_cases h
      · exact seq_of_sameRegisters hsame
      · exact idleEffect_seq (hstart hidle) s.quiet
      · exact (hrunning hseq hi).elim
      · exact (hreporting hseq hi).elim
  · rw [step_eq_runTaken hport, runTaken_of_rst hrst] at h
    cases h
    rfl

/-- Settles O51: neither IDLE nor DONE is one of the two states in which TICK has an effect. -/
theorem tickOutsideATrialDoesNothing : Obligations.TickOutsideATrialDoesNothing := by
  intro s hs
  have hrunning : s.sequencer.seq ≠ .running := by
    obtain hs | hs := hs <;> simp [hs]
  have hreporting : s.sequencer.seq ≠ .reporting := by
    obtain hs | hs := hs <;> simp [hs]
  exact ⟨duty_of_not_running hrunning, exec_tick_rest hrunning hreporting⟩

end Sys2Proof.Sequencer
end

section
/-! PROOFS of the family 45_host_access: NOP, RDREG and WRREG (R160 to R162). -/

namespace Sys2Proof.HostAccess

open Sys2Proof.Machine Sys2Proof.Scope Sys2Proof.Registers Sys2Proof.Encoding Sys2Proof.GrayTracker

/-! ### The register map as a list of names (R50, R51)

Each row of `registerTable` is the number of one name with the value that name reads, so a fact about a number of the
map becomes a fact about a name. -/

/-- The row of the register map that belongs to a name. -/
def readRow (s : State) (r : Reg) : Nat × Nat := (r.number.toNat, (readNamed s r).toNat)

/-- The names of the datapath block (R50). -/
def datapathNames : List Reg :=
  [.ref, .prevang, .cnt, .tog, .chl, .cntlast, .spd, .dir, .tally, .pch2, .err, .integl, .integh, .out, .kp]

/-- The names of the sequencer block (R50). -/
def sequencerNames : List Reg := [.seq, .rep, .tstart, .elapsed, .tlastpi, .tlastdir, .tlastspd, .rev, .cmd]

/-- The names of the report block (R50). -/
def reportNames : List Reg := [.rptAbs, .rptInc, .rptDiff, .rptDir, .rptSpd, .rptRep, .rptn]

/-- The names of the views (R50, R51). -/
def viewNames : List Reg := [.duty, .dirsel, .inPins, .inNow, .inTicks]

/-- The names of the configuration registers, with their widths (R41). -/
def configNames : List (Reg × Nat) :=
  [(.mode, 1), (.dstrat, 1), (.msrc, 1), (.k, 32), (.kref, 32), (.ki, 32), (.outmin, 32), (.outmax, 32), (.base, 32),
    (.thresh, 32), (.hyshi, 16), (.hyslo, 16), (.tally0, 16), (.cpr, 16), (.tctrl, 32), (.tdir, 32), (.tspd, 32),
    (.ttrial, 32), (.maxreps, 16)]

/-- All names of the register space, in the order of `registerTable`. -/
def mapNames : List Reg :=
  datapathNames ++ sequencerNames ++ reportNames ++ viewNames ++ configNames.map Prod.fst

theorem datapathTable_eq (s : State) : datapathTable s = datapathNames.map (readRow s) := by
  simp [datapathTable, datapathNames, readRow, readNamed, Reg.number, zext32_toNat, integLow_toNat, integHigh_toNat]

theorem sequencerTable_eq (s : State) : sequencerTable s = sequencerNames.map (readRow s) := by
  simp [sequencerTable, sequencerNames, readRow, readNamed, Reg.number, zext32_toNat, seqCode_toNat]

theorem reportTable_eq (s : State) : reportTable s = reportNames.map (readRow s) := by
  simp [reportTable, reportNames, readRow, readNamed, Reg.number, zext32_toNat]

theorem viewTable_eq (s : State) : viewTable s = viewNames.map (readRow s) := by
  simp [viewTable, viewNames, readRow, readNamed, Reg.number, zext32_toNat, dirSel, pinsView_toNat]

theorem configTable_eq (s : State) :
    configTable s.cfg = configNames.map fun e => (e.1.number.toNat, e.2, (readNamed s e.1).toNat) := by
  simp [configTable, configNames, readNamed, Reg.number, zext32_toNat]

theorem registerTable_eq (s : State) : registerTable s = mapNames.map (readRow s) := by
  rw [registerTable, datapathTable_eq, sequencerTable_eq, reportTable_eq, viewTable_eq, configTable_eq]
  simp [mapNames, readRow]

theorem mem_mapNames (r : Reg) : r ∈ mapNames := by
  cases r <;> decide

/-- `RDREG` of a number of the map answers the value of its row. -/
theorem readReg_of_mem_registerTable {s : State} {a : RegNumber} {x : Nat} (h : (a.toNat, x) ∈ registerTable s) :
    (readReg s a).toNat = x := by
  rw [registerTable_eq, List.mem_map] at h
  obtain ⟨r, -, hrow⟩ := h
  obtain ⟨hnumber, hvalue⟩ := Prod.mk.inj hrow
  rw [← BitVec.eq_of_toNat_eq hnumber, readReg_number, hvalue]

/-- A number of no row names nothing, and so reads 0 (R52). -/
theorem readReg_of_not_mem_registerTable {s : State} {a : RegNumber}
    (h : a.toNat ∉ (registerTable s).map Prod.fst) : readReg s a = 0 := by
  cases hr : regAt a with
  | none => rw [readReg, hr]
  | some r =>
    obtain rfl := number_of_regAt a r hr
    have hrow : readRow s r ∈ registerTable s := by
      rw [registerTable_eq]
      exact List.mem_map_of_mem (mem_mapNames r)
    exact absurd (List.mem_map_of_mem (f := Prod.fst) hrow) h

/-! ### What a write to a configuration register reads back (R162) -/

theorem lowBits_toNat (w : Nat) (d : Word) : (lowBits w d).toNat = d.toNat % 2 ^ w := by
  simp [lowBits, BitVec.extractLsb'_toNat]

theorem zext32_lowBits_toNat {w : Nat} (h : w ≤ 32) (d : Word) : (zext32 (lowBits w d)).toNat = d.toNat % 2 ^ w := by
  rw [zext32_toNat _ h, lowBits_toNat]

theorem configWidths_eq : configWidths = configNames.map fun e => (e.1.number.toNat, e.2) := rfl

theorem configNumbers_eq : configWidths.map Prod.fst = List.range' 0x40 19 := rfl

/-- A register of full width reads back the operand, a narrower one its low bits. -/
theorem readNamed_writeNamed_same (s : State) (d : Word) : ∀ e ∈ configNames,
    (readNamed { s with cfg := writeNamed s.cfg e.1 d } e.1).toNat = d.toNat % 2 ^ e.2 := by
  have bit : (zext32 (lowBits 1 d)).toNat = d.toNat % 2 ^ 1 := zext32_lowBits_toNat (by decide) d
  have half : (zext32 (lowBits 16 d)).toNat = d.toNat % 2 ^ 16 := zext32_lowBits_toNat (by decide) d
  have full : (lowBits 32 d).toNat = d.toNat % 2 ^ 32 := lowBits_toNat 32 d
  simp only [configNames, List.forall_mem_cons]
  exact ⟨bit, bit, bit, full, full, full, full, full, full, full, half, half, half, half, full, full, full, full,
    half, List.forall_mem_nil _⟩

/-- A write to one name leaves what every other name reads: each register has a field of its own in `Tunables`, and
no read but its own looks at it. -/
theorem readNamed_writeNamed_of_ne {r q : Reg} (h : q ≠ r) (s : State) (d : Word) :
    readNamed { s with cfg := writeNamed s.cfg r d } q = readNamed s q := by
  cases r
  case mode | dstrat | msrc | k | kref | ki | outmin | outmax | base | thresh | hyshi | hyslo | tally0 | cpr | tctrl
      | tdir | tspd | ttrial | maxreps =>
    cases q <;> try rfl
    -- what is left is the name written itself
    exact absurd rfl h
  all_goals rfl

theorem readReg_writeReg_same {s : State} {a : RegNumber} {w : Nat} (h : (a.toNat, w) ∈ configWidths) (d : Word) :
    (readReg { s with cfg := writeReg s.cfg a d } a).toNat = d.toNat % 2 ^ w := by
  rw [configWidths_eq, List.mem_map] at h
  obtain ⟨⟨r, v⟩, hr, hrow⟩ := h
  obtain ⟨hnumber, rfl⟩ := Prod.mk.inj hrow
  rw [← BitVec.eq_of_toNat_eq hnumber, writeReg_number, readReg_number]
  exact readNamed_writeNamed_same s d _ hr

theorem readReg_writeReg_of_ne {a b : RegNumber} (h : b ≠ a) (s : State) (d : Word) :
    readReg { s with cfg := writeReg s.cfg a d } b = readReg s b := by
  cases ha : regAt a with
  | none => rw [writeReg, ha]
  | some r =>
    obtain rfl := number_of_regAt a r ha
    rw [writeReg_number]
    cases hb : regAt b with
    | none => rw [readReg, readReg, hb]
    | some q =>
      obtain rfl := number_of_regAt b q hb
      rw [readReg_number, readReg_number]
      exact readNamed_writeNamed_of_ne (fun hqr => h (congrArg Reg.number hqr)) s d

/-- The numbers of R41 are the block 0x40 to 0x52; any other number is no configuration register. -/
theorem writeReg_of_not_mem_configWidths {a : RegNumber} (h : a.toNat ∉ configWidths.map Prod.fst) (c : Tunables)
    (d : Word) : writeReg c a d = c := by
  rw [configNumbers_eq, List.mem_range'_1] at h
  exact writeReg_of_not_config (by omega) c d

/-! ### The obligations -/

/-- Settles O19: a number of the map is the number of one name, whose value is its row's; any other reads 0. -/
theorem rdregReadsTheRegisterMap : Obligations.RdregReadsTheRegisterMap :=
  ⟨fun _ hop => decode_of_opcode (m := .rdreg) hop,
    fun s a => ⟨readReg s a, exec_rdreg a s, fun _ => readReg_of_mem_registerTable,
      readReg_of_not_mem_registerTable⟩⟩

/-- Settles O20: the new configuration is the old one with one register written. -/
theorem wrregWritesOneConfigurationRegister : Obligations.WrregWritesOneConfigurationRegister := by
  refine ⟨fun _ hop => decode_of_opcode (m := .wrreg) hop, fun s a d hs => ?_, fun _ _ _ hs => exec_of_busy rfl hs⟩
  exact ⟨writeReg s.cfg a d, exec_of_idle (i := .wrreg a d) rfl hs, fun _ hw => readReg_writeReg_same hw d,
    fun _ hb => readReg_writeReg_of_ne hb s d, fun ha => writeReg_of_not_mem_configWidths ha s.cfg d⟩

/-- Settles O18. -/
theorem nopDoesNothing : Obligations.NopDoesNothing :=
  ⟨fun _ hop => decode_of_opcode (m := .nop) hop, exec_nop⟩

end Sys2Proof.HostAccess
end

section
/-! PROOFS of the family 60_exceptions: every operation and every step answers a next state (R170). -/

namespace Sys2Proof.Exceptions

open Sys2Proof.Machine Sys2Proof.Scope

/-- Whatever its operation, operands and `SEQ`, exec is some effect on the quiet state, never a fault or a refusal. -/
theorem exec_total (i : Instr) (s : State) : ∃ t, exec i s = .next t := by
  obtain ⟨f, -, hexec⟩ := exec_portBlind i s
  exact ⟨f s.quiet, hexec s rfl fun _ => rfl⟩

/-- A taken word is overridden by reset, executed, or reserved (R190, R84): each answers. -/
theorem runTaken_total (a : Arrival) (s : State) : ∃ t, runTaken a s = .next t := by
  cases hrst : a.inp.rst with
  | true => exact ⟨resetCore s, runTaken_of_rst hrst s⟩
  | false =>
    cases hdec : decode a.word with
    | ok i =>
      obtain ⟨t, ht⟩ := exec_total i s
      exact ⟨t, (runTaken_of_decode_ok hrst hdec s).trans ht⟩
    | error e => exact ⟨s.quiet, runTaken_of_decode_error hrst hdec s⟩

theorem step_total (s : State) : ∃ t, step s = .next t := by
  cases hport : s.port with
  | nil => exact ⟨s.quiet, step_of_port_nil hport⟩
  | cons a rest =>
    obtain ⟨t, ht⟩ := runTaken_total a ((s.withInp a.inp).withPort rest)
    exact ⟨t, (step_eq_runTaken hport).trans ht⟩

/-- Settles O14: the one effect each operation has makes exec total, and a step is at most one exec. -/
theorem nothingFaults : Obligations.NothingFaults :=
  ⟨exec_total, step_total⟩

end Sys2Proof.Exceptions
end

section
/-! PROOFS of the family 70_reset_and_hazards: reset and the way out of DONE (R190), commands outside IDLE (R204). -/

namespace Sys2Proof.ResetAndHazards

open Sys2Proof.Machine Sys2Proof.Scope Sys2Proof.Registers Sys2Proof.GrayTracker Sys2Proof.Sequencer

/-! ### Reset (R190) -/

theorem step_of_rst {s : State} {a : Arrival} {rest : List Arrival} (hport : s.port = a :: rest)
    (hrst : a.inp.rst = true) : step s = .next (resetCore ((s.withInp a.inp).withPort rest)) :=
  (step_eq_runTaken hport).trans (runTaken_of_rst hrst _)

theorem resetCore_sameRegisters (s : State) : SameRegisters (resetCore s) State.reset :=
  sameRegisters_modelFields State.reset _ _ _

theorem resetCore_duty (s : State) : duty (resetCore s) = 0 :=
  duty_of_sameRegisters (resetCore_sameRegisters s)

/-! ### The way out of DONE (R190) -/

/-- DONE is outside IDLE, and `TICK` has no effect there (R86, R148). -/
theorem exec_sameRegisters_of_done {i : Instr} {s t : State} (hdone : s.sequencer.seq = .done)
    (h : exec i s = .next t) : SameRegisters t s := by
  obtain hsame | ⟨hidle, -⟩ | ⟨-, hrunning, -⟩ | ⟨-, hreporting, -⟩ := exec_cases h
  · exact hsame
  · exact absurd (hdone.symm.trans hidle) (by decide)
  · exact absurd (hdone.symm.trans hrunning) (by decide)
  · exact absurd (hdone.symm.trans hreporting) (by decide)

theorem runTaken_sameRegisters_of_done {a : Arrival} {s t : State} (hdone : s.sequencer.seq = .done)
    (hrst : a.inp.rst = false) (h : runTaken a s = .next t) : SameRegisters t s := by
  cases hdec : decode a.word with
  | ok i =>
    rw [runTaken_of_decode_ok hrst hdec] at h
    exact exec_sameRegisters_of_done hdone h
  | error e =>
    rw [runTaken_of_decode_error hrst hdec] at h
    cases h
    exact sameRegisters_modelFields s _ _ _

/-- A step in DONE moves a register only under reset. -/
theorem step_of_done_cases {s t : State} (hdone : s.sequencer.seq = .done) (h : step s = .next t) :
    SameRegisters t s ∨ ∃ (a : Arrival) (rest : List Arrival), s.port = a :: rest ∧ a.inp.rst = true := by
  cases hport : s.port with
  | nil =>
    rw [step_of_port_nil hport] at h
    cases h
    exact .inl (sameRegisters_modelFields s _ _ _)
  | cons a rest =>
    cases hrst : a.inp.rst with
    | true => exact .inr ⟨a, rest, rfl, hrst⟩
    | false =>
      rw [step_eq_runTaken hport] at h
      have hkept : SameRegisters t ((s.withInp a.inp).withPort rest) := runTaken_sameRegisters_of_done hdone hrst h
      exact .inl (sameRegisters_trans hkept (sameRegisters_modelFields s _ _ _))

/-! ### The sequencer's code (R30) -/

theorem zext32_seqCode (q : Seq) : zext32 (seqCode q) = BitVec.ofNat 32 (seqNumber q) := by
  cases q <;> rfl

theorem readReg_seq (s : State) : readReg s 0x10#8 = BitVec.ofNat 32 (seqNumber s.sequencer.seq) :=
  (readReg_number s .seq).trans (zext32_seqCode s.sequencer.seq)

/-! ### The obligations -/

/-- Settles O12: the reset core has the registers of the reset state; without `rst` a step in DONE keeps `SEQ`. -/
theorem resetRestoresEveryRegister : Obligations.ResetRestoresEveryRegister := by
  refine ⟨fun s a rest hport hrst => ?_, fun s t hdone hstep hleft => ?_⟩
  · obtain ⟨htracker, hcounter, hdirection, hpi, hsequencer, hreport, hcfg⟩ :=
      resetCore_sameRegisters ((s.withInp a.inp).withPort rest)
    refine ⟨_, step_of_rst hport hrst, htracker, hcounter, hdirection, hpi, hsequencer, hreport, ?_,
      resetCore_duty _, congrArg Sequencer.rev hsequencer, rfl, rfl⟩
    rw [hcfg]
    decide
  · obtain hsame | hreset := step_of_done_cases hdone hstep
    · exact absurd ((seq_of_sameRegisters hsame).trans hdone) hleft
    · exact hreset

/-- Settles O17: an operation not accepted in every state is gated on IDLE, and `RDREG` reads the code of `SEQ`. -/
theorem commandsOutsideIdleAreIgnored : Obligations.CommandsOutsideIdleAreIgnored := by
  refine ⟨fun _ _ hbusy hgated => exec_of_busy hgated hbusy, fun s => ?_⟩
  rw [exec_rdreg, readReg_seq]
  rfl

end Sys2Proof.ResetAndHazards
end
